-- ==== Sys2Proof/Word.lean ====
section
/-! DEFINITION. The fixed widths of the block's values (spec/00_scope.md R9, spec/30_encoding.md R70, R72). -/

namespace Sys2Proof

/-- An 8-bit register of the Display Buffer, or the host's write data (`BUF_WIDTH`, `HWDATA_WIDTH` of R9). -/
abbrev Byte := BitVec 8

/-- The host's read data and the Millisecond Counter (`HRDATA_WIDTH`, `MS_WIDTH` of R9). -/
abbrev Word32 := BitVec 32

/-- A 4-bit host register address (`HADDR_WIDTH` of R9). -/
abbrev HAddr := BitVec 4

/-- A 16-bit stimulus word, the encoding of one step (R72). -/
abbrev StimWord := BitVec 16

/-- A digit position, 0 = most significant, 3 = least significant (R8 `NDIG`, R18). -/
abbrev DigitIx := Fin 4

end Sys2Proof
end

