-- ==== Sys2Proof/Syntax.lean ====
section
/-! DEFINITION. The operations of the block, one constructor per row of spec/opcode_table.json (spec/30_encoding.md R74),
the agents that take them, what the input ports carry, and why a word is no stimulus. -/

namespace Sys2Proof

/-- One operation of the block: a host register access or an input event (R2, R74). The 16 operations have 18 rows in the
table, since RD_RSVD and WR_RSVD have two patterns each; `a` of their second rows is the whole address `W[11:8]`, which
`Instr.wf` bounds. `x` is write data that the operation ignores: the port presents it all the same (R71). -/
inductive Instr where
  /-- `RD_DIGIT i` (R140). -/
  | rdDigit (i : DigitIx)
  /-- `RD_INTEN i` (R141). -/
  | rdInten (i : DigitIx)
  /-- `RD_DP` (R142). -/
  | rdDp
  /-- `RD_MS` (R121). -/
  | rdMs
  /-- `RD_RDY` (R131). -/
  | rdRdy
  /-- `RD_RSVD 0xB` (R146), the row of match `0x0B00`. -/
  | rdRsvdB
  /-- `RD_RSVD a`, `a` in `0xC`..`0xF` (R146), the row of match `0x0C00`. -/
  | rdRsvd (a : HAddr)
  /-- `WR_DIGIT i, d` (R143). -/
  | wrDigit (i : DigitIx) (d : Byte)
  /-- `WR_INTEN i, d` (R144). -/
  | wrInten (i : DigitIx) (d : Byte)
  /-- `WR_DP d` (R145). -/
  | wrDp (d : Byte)
  /-- `CLR_MS`, write data ignored (R122). -/
  | clrMs (x : Byte)
  /-- `CLR_RDY`, write data ignored (R132). -/
  | clrRdy (x : Byte)
  /-- `WR_RSVD 0xB`, write data ignored (R147), the row of match `0x4B00`. -/
  | wrRsvdB (x : Byte)
  /-- `WR_RSVD a`, `a` in `0xC`..`0xF`, write data ignored (R147), the row of match `0x4C00`. -/
  | wrRsvd (a : HAddr) (x : Byte)
  /-- `RESET` (R220). -/
  | reset
  /-- `TICK_MUX` (R103). -/
  | tickMux
  /-- `TICK_MS` (R120). -/
  | tickMs
  /-- `EDGE` (R130). -/
  | edge
  deriving DecidableEq, Repr

/-- The five agents (R17, R203). -/
inductive Agent where
  | mux
  | ms
  | cap
  | host
  | rst
  deriving DecidableEq, Repr

/-- The agent that takes an operation: the table's column "agent" (R74). -/
def Instr.agent : Instr → Agent
  | .rdDigit _ => .host
  | .rdInten _ => .host
  | .rdDp => .host
  | .rdMs => .host
  | .rdRdy => .host
  | .rdRsvdB => .host
  | .rdRsvd _ => .host
  | .wrDigit _ _ => .host
  | .wrInten _ _ => .host
  | .wrDp _ => .host
  | .clrMs _ => .host
  | .clrRdy _ => .host
  | .wrRsvdB _ => .host
  | .wrRsvd _ _ => .host
  | .reset => .rst
  | .tickMux => .mux
  | .tickMs => .ms
  | .edge => .cap

/-- What the block's input ports carry in one step (R70, R71): one host access, or one occurrence on an event port. -/
inductive PortEvent where
  /-- The triple (`h_we`, `h_addr`, `h_wdata`) presented together. -/
  | access (we : Bool) (addr : HAddr) (wdata : Byte)
  /-- One occurrence on `rst`. -/
  | rst
  /-- One occurrence on `tick_mux`. -/
  | tickMux
  /-- One occurrence on `tick_ms`. -/
  | tickMs
  /-- One occurrence on `edge_evt`. -/
  | edgeEvt
  deriving DecidableEq, Repr

/-- Why a 16-bit word is not a stimulus: one name per clause of R76. -/
inductive NotStimulus where
  /-- `W[15:14] = 0b11`. -/
  | reservedKind
  /-- `W[13:12] != 0b00`. -/
  | zeroFieldSet
  /-- A host read with `W[7:0] != 0x00`. -/
  | readWithData
  /-- An event with `W[7:0] != 0x00`. -/
  | eventWithData
  /-- An event with `W[11:8] >= 4`. -/
  | reservedEvent
  deriving DecidableEq, Repr

/-- One row of the operation list (R74): a word `W` is of this row iff `W & mask == pattern`. -/
structure OpRow where
  mnemonic : String
  agent : Agent
  pattern : StimWord
  mask : StimWord
  deriving DecidableEq, Repr

end Sys2Proof
end

