-- ==== Sys2Proof/WellFormed.lean ====
section
/-! DEFINITION. Which terms of Instr are operations of the block: the operand ranges of spec/30_encoding.md R75. The digit
index and the write data have their ranges in their types; the address of a reserved access is the one field to check. -/

namespace Sys2Proof

/-- `a` is an address of the second pattern of RD_RSVD and WR_RSVD: `0xC` to `0xF` (R74, R75). -/
def rsvdHighAddr (a : HAddr) : Bool := 0xC ≤ a.toNat

/-- The operand checks of R75, constructor by constructor. -/
def Instr.wf : Instr → Bool
  | .rdDigit _ => true
  | .rdInten _ => true
  | .rdDp => true
  | .rdMs => true
  | .rdRdy => true
  | .rdRsvdB => true
  | .rdRsvd a => rsvdHighAddr a
  | .wrDigit _ _ => true
  | .wrInten _ _ => true
  | .wrDp _ => true
  | .clrMs _ => true
  | .clrRdy _ => true
  | .wrRsvdB _ => true
  | .wrRsvd a _ => rsvdHighAddr a
  | .reset => true
  | .tickMux => true
  | .tickMs => true
  | .edge => true

end Sys2Proof
end

