-- ==== Sys2Proof/Decode.lean ====
section
/-! DEFINITION. The stimulus word's decoder, total and rejecting by name, its encoder, and the operation list as a table
(spec/30_encoding.md R72 to R76, R82). -/

namespace Sys2Proof

/-- `kind = W[15:14]` (R72). -/
def fieldKind (w : StimWord) : BitVec 2 := w.extractLsb' 14 2

/-- `zero = W[13:12]` (R72). -/
def fieldZero (w : StimWord) : BitVec 2 := w.extractLsb' 12 2

/-- `sel = W[11:8]` (R72). -/
def fieldSel (w : StimWord) : BitVec 4 := w.extractLsb' 8 4

/-- `data = W[7:0]` (R72). -/
def fieldData (w : StimWord) : Byte := w.extractLsb' 0 8

/-- The digit index of a register address: its low two bits, `W[9:8]` of the word (R75). -/
def regIndex (a : HAddr) : DigitIx := (a.extractLsb' 0 2).toFin

/-- The host read of address `a` (R74's RD rows, R51). -/
def decodeRead (a : HAddr) : Instr :=
  if a < 0x4#4 then .rdDigit (regIndex a)
  else if a < 0x8#4 then .rdInten (regIndex a)
  else if a = 0x8#4 then .rdDp
  else if a = 0x9#4 then .rdMs
  else if a = 0xA#4 then .rdRdy
  else if a = 0xB#4 then .rdRsvdB
  else .rdRsvd a

/-- The host write of `d` to address `a` (R74's WR rows, R51). -/
def decodeWrite (a : HAddr) (d : Byte) : Instr :=
  if a < 0x4#4 then .wrDigit (regIndex a) d
  else if a < 0x8#4 then .wrInten (regIndex a) d
  else if a = 0x8#4 then .wrDp d
  else if a = 0x9#4 then .clrMs d
  else if a = 0xA#4 then .clrRdy d
  else if a = 0xB#4 then .wrRsvdB d
  else .wrRsvd a d

/-- The event of number `n` (R73); 4 to 15 are reserved (R76). -/
def decodeEvent (n : BitVec 4) : Except NotStimulus Instr :=
  if n = 0#4 then .ok .reset
  else if n = 1#4 then .ok .tickMux
  else if n = 2#4 then .ok .tickMs
  else if n = 3#4 then .ok .edge
  else .error .reservedEvent

/-- The operation a 16-bit word encodes, or why it is no stimulus (R72, R76). Where several clauses of R76 hold, the
reason is the first of them in R76's order. -/
def decode (w : StimWord) : Except NotStimulus Instr :=
  if fieldKind w = 0b11#2 then .error .reservedKind
  else if fieldZero w ≠ 0b00#2 then .error .zeroFieldSet
  else if fieldKind w = 0b00#2 then
    if fieldData w ≠ 0x00#8 then .error .readWithData else .ok (decodeRead (fieldSel w))
  else if fieldKind w = 0b01#2 then .ok (decodeWrite (fieldSel w) (fieldData w))
  else if fieldData w ≠ 0x00#8 then .error .eventWithData
  else decodeEvent (fieldSel w)

/-- The instruction the decoder reads from a table row's word (the host's fixed name). Every word has 16 bits (R72, R82);
bits at or above `nbits` are 0. -/
def decodeTableWord (nbits w : Nat) : Option Instr :=
  if 16 < nbits then none
  else
    match decode (BitVec.ofNat 16 (w % 2 ^ nbits)) with
    | .ok i => some i
    | .error _ => none

/-- `DIGITi`'s address, `0x0 + i` (R21, R51). -/
def digitAddr (i : DigitIx) : HAddr := 0b00#2 ++ (BitVec.ofFin i : BitVec 2)

/-- `INTENi`'s address, `0x4 + i` (R22, R51). -/
def intenAddr (i : DigitIx) : HAddr := 0b01#2 ++ (BitVec.ofFin i : BitVec 2)

/-- `DPPOS`'s address (R23, R51). -/
def dpAddr : HAddr := 0x8#4

/-- `MSCNT`'s address (R31, R51). -/
def msAddr : HAddr := 0x9#4

/-- `READY`'s address (R32, R51). -/
def readyAddr : HAddr := 0xA#4

/-- The first reserved address (R51, R58). -/
def rsvdBAddr : HAddr := 0xB#4

/-- `RD a`: `0x0a00` (R72). -/
def encodeRead (a : HAddr) : StimWord := 0b00#2 ++ 0b00#2 ++ a ++ 0x00#8

/-- `WR a, d`: `0x4a00 | d` (R72). -/
def encodeWrite (a : HAddr) (d : Byte) : StimWord := 0b01#2 ++ 0b00#2 ++ a ++ d

/-- `EV n`: `0x8n00` (R72, R73). -/
def encodeEvent (n : BitVec 4) : StimWord := 0b10#2 ++ 0b00#2 ++ n ++ 0x00#8

/-- The stimulus word of an operation (R72 to R75). -/
def encode : Instr → StimWord
  | .rdDigit i => encodeRead (digitAddr i)
  | .rdInten i => encodeRead (intenAddr i)
  | .rdDp => encodeRead dpAddr
  | .rdMs => encodeRead msAddr
  | .rdRdy => encodeRead readyAddr
  | .rdRsvdB => encodeRead rsvdBAddr
  | .rdRsvd a => encodeRead a
  | .wrDigit i d => encodeWrite (digitAddr i) d
  | .wrInten i d => encodeWrite (intenAddr i) d
  | .wrDp d => encodeWrite dpAddr d
  | .clrMs x => encodeWrite msAddr x
  | .clrRdy x => encodeWrite readyAddr x
  | .wrRsvdB x => encodeWrite rsvdBAddr x
  | .wrRsvd a x => encodeWrite a x
  | .reset => encodeEvent 0#4
  | .tickMux => encodeEvent 1#4
  | .tickMs => encodeEvent 2#4
  | .edge => encodeEvent 3#4

/-- What the input ports carry for an operation (R70, R71): `h_we` is `kind[0]`, `h_addr` is `sel`, `h_wdata` is `data`
(R72). -/
def Instr.port : Instr → PortEvent
  | .rdDigit i => .access false (digitAddr i) 0
  | .rdInten i => .access false (intenAddr i) 0
  | .rdDp => .access false dpAddr 0
  | .rdMs => .access false msAddr 0
  | .rdRdy => .access false readyAddr 0
  | .rdRsvdB => .access false rsvdBAddr 0
  | .rdRsvd a => .access false a 0
  | .wrDigit i d => .access true (digitAddr i) d
  | .wrInten i d => .access true (intenAddr i) d
  | .wrDp d => .access true dpAddr d
  | .clrMs x => .access true msAddr x
  | .clrRdy x => .access true readyAddr x
  | .wrRsvdB x => .access true rsvdBAddr x
  | .wrRsvd a x => .access true a x
  | .reset => .rst
  | .tickMux => .tickMux
  | .tickMs => .tickMs
  | .edge => .edgeEvt

/-- The operation list of R74, row by row in spec/opcode_table.json's order. -/
def opcodeTable : List OpRow :=
  [ ⟨"RD_DIGIT", .host, 0x0000, 0xFCFF⟩,
    ⟨"RD_INTEN", .host, 0x0400, 0xFCFF⟩,
    ⟨"RD_DP", .host, 0x0800, 0xFFFF⟩,
    ⟨"RD_MS", .host, 0x0900, 0xFFFF⟩,
    ⟨"RD_RDY", .host, 0x0A00, 0xFFFF⟩,
    ⟨"RD_RSVD", .host, 0x0B00, 0xFFFF⟩,
    ⟨"RD_RSVD", .host, 0x0C00, 0xFCFF⟩,
    ⟨"WR_DIGIT", .host, 0x4000, 0xFC00⟩,
    ⟨"WR_INTEN", .host, 0x4400, 0xFC00⟩,
    ⟨"WR_DP", .host, 0x4800, 0xFF00⟩,
    ⟨"CLR_MS", .host, 0x4900, 0xFF00⟩,
    ⟨"CLR_RDY", .host, 0x4A00, 0xFF00⟩,
    ⟨"WR_RSVD", .host, 0x4B00, 0xFF00⟩,
    ⟨"WR_RSVD", .host, 0x4C00, 0xFC00⟩,
    ⟨"RESET", .rst, 0x8000, 0xFFFF⟩,
    ⟨"TICK_MUX", .mux, 0x8100, 0xFFFF⟩,
    ⟨"TICK_MS", .ms, 0x8200, 0xFFFF⟩,
    ⟨"EDGE", .cap, 0x8300, 0xFFFF⟩ ]

/-- Whether a word is of a row: `W & mask == match` (R74). -/
def OpRow.covers (r : OpRow) (w : StimWord) : Bool := w &&& r.mask == r.pattern

/-- The place of a constructor's row in `opcodeTable`. -/
def Instr.rowIndex : Instr → Fin 18
  | .rdDigit _ => 0
  | .rdInten _ => 1
  | .rdDp => 2
  | .rdMs => 3
  | .rdRdy => 4
  | .rdRsvdB => 5
  | .rdRsvd _ => 6
  | .wrDigit _ _ => 7
  | .wrInten _ _ => 8
  | .wrDp _ => 9
  | .clrMs _ => 10
  | .clrRdy _ => 11
  | .wrRsvdB _ => 12
  | .wrRsvd _ _ => 13
  | .reset => 14
  | .tickMux => 15
  | .tickMs => 16
  | .edge => 17

/-- The row of R74 an operation stands in. -/
def Instr.row (i : Instr) : OpRow := opcodeTable[i.rowIndex]

end Sys2Proof
end

