-- ==== Sys2Proof/Config.lean ====
section
/-! DEFINITION. The constants the source fixes (spec/00_scope.md R8, R9) and the parameters it leaves open (R10), each
open one an opaque constant: no proof can see its value. -/

namespace Sys2Proof.Config

/-- `NDIG`: the number of digit positions (R8). -/
abbrev ndig : Nat := 4

/-- `NGLYPH`: the number of glyph codes (R8). -/
abbrev nglyph : Nat := 17

/-- `DUTY_MAX`: full brightness, the clamp of step 1 and the wrap threshold of step 4 of TICK_MUX (R8). -/
abbrev dutyMax : Nat := 100

/-- `NSEG`: the number of segment outputs (R8). -/
abbrev nseg : Nat := 8

/-- `DP_MAX`: the largest documented decimal-point position (R8). -/
abbrev dpMax : Nat := 4

/-- `SLOT_TICKS`: the TICK_MUX steps of one slot, `DUTY_MAX + 1` (R9, R108). -/
abbrev slotTicks : Nat := dutyMax + 1

/-- The TICK_MUX steps of one frame: four slots (R18, R108). -/
abbrev frameTicks : Nat := ndig * slotTicks

/-- `GLYPH`, the glyph table: 17 entries of 7 bits, bit 0 = segment A to bit 6 = segment G (R10, R26, R79). The patterns
are not in the source: an open parameter (U8). DESIGN CHOICE, safe: log entry 3. -/
opaque glyph : Fin 17 → BitVec 7

/-- `BRIGHTNESS`, the configured global display brightness, in 0..100 (R10, U9). Host software only. DESIGN CHOICE,
safe: log entry 4. -/
opaque brightness : Fin 101

/-- `OVERFLOW_GLYPH`, the overflow glyph's code, in 0..16 (R10, U9). Host software only. DESIGN CHOICE, safe: log
entry 4. -/
opaque overflowGlyph : Fin 17

end Sys2Proof.Config
end

