-- ==== Sys2Proof/Machine/State.lean ====
section
/-! DEFINITION. The state of the machine (spec/10_state.md), its reset value (R36), and the reasons a step can stop. -/

namespace Sys2Proof.Machine

/-- The complete state of the block: the 18 elements of R20, 126 bits, and nothing else. -/
structure Block where
  /-- `digits[0..3]`: the glyph code of each digit position, any 8-bit value (R21). -/
  digits : Vector Byte 4
  /-- `intens[0..3]`: the intensity of each digit position, any 8-bit value (R22). -/
  intens : Vector Byte 4
  /-- `dp_pos`: the decimal-point position, any 8-bit value (R23). -/
  dpPos : Byte
  /-- `cur`: the digit whose slot is in progress, 2 bits (R27). -/
  cur : DigitIx
  /-- `duty`: the TICK_MUX steps since the advance that started the slot, 7 bits (R27, R28). -/
  duty : BitVec 7
  /-- `seg`: the segment output latch, bits 0..6 = segments A..G, bit 7 = decimal point (R29). -/
  seg : Byte
  /-- `dig[0..3]`: the digit-select output latches, true = asserted (R16, R30). -/
  dig : Vector Bool 4
  /-- `ms`: the Millisecond Counter, 32 bits (R31). -/
  ms : Word32
  /-- `ready`: the Ready Flag, 1 bit (R32). -/
  ready : Bool
  deriving DecidableEq, Repr

/-- The machine: the block, what its host port answered, and the environment's stimuli still to come. -/
structure State where
  /-- The block's 18 state elements (R20). -/
  block : Block
  /-- `h_rdata`: what the host port answered to the latest host access: a value after a read, none after a write (R71: "a
  model returns no value for a write") and before the first access. It is a port, no element of R20, and nothing in the
  block reads it. DESIGN CHOICE, unsafe if read as the level of the port's lines after the access: log entry 2. -/
  hRdata : Option Word32
  /-- The MODEL's own field, not the spec's: the stimulus words the environment is still going to deliver, oldest first
  (R17, R72). The block itself holds no queue of events (R34, R194). DESIGN CHOICE, safe: log entry 1. -/
  stimuli : List StimWord
  deriving DecidableEq, Repr

/-- Why a step could fault. There is no constructor: the block raises no synchronous exception, fault, trap, error
response or error flag, for any operation, in any state (R190, R192). -/
inductive Fault where
  deriving DecidableEq, Repr

/-- Why a step gives a word no meaning. -/
inductive Refusal where
  /-- An arm of exec whose instruction has no meaning yet. No arm raises it: every operation of the table is modelled.
  Safe. -/
  | notModelled (mnemonic : String)
  /-- Raised by step alone, when the next word of the stimuli encodes no step of the block (R76: "a decoder rejects it; it
  can occur in no trace"); the clause of R76 is the reason. Safe: such a word is no hardware behaviour. -/
  | notAStimulus (why : NotStimulus)
  deriving DecidableEq, Repr

/-- The reset value of every element (R36, R220; decision D14 of the spec). -/
def Block.reset : Block where
  digits := #v[0, 0, 0, 0]
  intens := #v[0, 0, 0, 0]
  dpPos := 0
  cur := 0
  duty := 0
  seg := 0x00
  dig := #v[false, false, false, false]
  ms := 0
  ready := false

/-- The machine right after reset: every element at its reset value (R36), no read answered (log entry 2) and no stimulus
delivered (log entry 1). -/
def State.reset : State where
  block := Block.reset
  hRdata := none
  stimuli := []

end Sys2Proof.Machine
end

