-- ==== Sys2Proof/Machine/Operands.lean ====
section
/-! DEFINITION. The operand forms of the operations: zero extension of read data, the clamp of an intensity, the
decimal-point test, the glyph code's range and the segment pattern (spec/30_encoding.md R75, R77 to R81). -/

namespace Sys2Proof.Machine

/-- `zext_32` (R11, R52): read data of a narrower register. -/
def zext32 {n : Nat} (v : BitVec n) : Word32 := v.setWidth 32

/-- `n = min(intens[cur], 100)`, step 1 of TICK_MUX, as an unsigned integer (R15, R103, R104). -/
def clampIntens (v : Byte) : Nat := min v.toNat Config.dutyMax

/-- The decimal-point test `dp_pos == cur' + 1` on zero-extended operands (R103, R106): true for position `p` in 1..4 and
the digit `p - 1` only. -/
def dpAt (p : Byte) (c : DigitIx) : Bool := p.toNat == c.val + 1

/-- The glyph code a `digits` register holds: 0 to 16 select a glyph, 17 to 255 none (R21, R78, R101). -/
def glyphCode (code : Byte) : Option (Fin 17) :=
  if h : code.toNat < 17 then some ⟨code.toNat, h⟩ else none

/-- The 8-bit pattern `(dpflag :: GLYPH[code])`: bit 7 the decimal point, bits 6..0 the glyph (R79). -/
def segPattern (dpflag : Bool) (g : Fin 17) : Byte := BitVec.ofBool dpflag ++ Config.glyph g

end Sys2Proof.Machine
end

