-- ==== Sys2Proof/Machine/Flags.lean ====
section
/-! DEFINITION. The block's only flag, the Ready Flag (spec/10_state.md R32): its set, its clear and its read. -/

namespace Sys2Proof.Machine

/-- `ready <- 1` (R130). -/
def Block.setReady (b : Block) : Block := { b with ready := true }

/-- `ready <- 0` (R132). -/
def Block.clearReady (b : Block) : Block := { b with ready := false }

/-- `zext_32(ready)`: bit 0 the flag, bits 31..1 zero (R32, R131). -/
def Block.readReady (b : Block) : Word32 := zext32 (BitVec.ofBool b.ready)

end Sys2Proof.Machine
end

