-- ==== Sys2Proof/Machine/Ops.lean ====
section
/-! DEFINITION. The named operations on the state: one update per element, the host's access primitives over the register
map (spec/20_memory.md R51 to R53), and the answer on the host port (spec/30_encoding.md R71). -/

namespace Sys2Proof.Machine

/-! ### One update per element (spec/10_state.md) -/

/-- `digits[i] <- d` (R21). -/
def Block.setDigit (b : Block) (i : DigitIx) (d : Byte) : Block := { b with digits := b.digits.set i d }

/-- `intens[i] <- d` (R22). -/
def Block.setInten (b : Block) (i : DigitIx) (d : Byte) : Block := { b with intens := b.intens.set i d }

/-- `dp_pos <- d` (R23). -/
def Block.setDpPos (b : Block) (d : Byte) : Block := { b with dpPos := d }

/-- `ms <- v` (R31). -/
def Block.setMs (b : Block) (v : Word32) : Block := { b with ms := v }

/-- `duty <- d1`, in 7 bits (R28). -/
def Block.setDuty (b : Block) (d1 : Nat) : Block := { b with duty := BitVec.ofNat 7 d1 }

/-- `cur <- c` and `duty <- 0`: the cursor at the start of a slot (R27). -/
def Block.startSlot (b : Block) (c : DigitIx) : Block := { b with cur := c, duty := 0 }

/-- `seg <- v`, all eight outputs together (R29). -/
def Block.setSeg (b : Block) (v : Byte) : Block := { b with seg := v }

/-- `dig[i] <- v` (R30). -/
def Block.setDig (b : Block) (i : DigitIx) (v : Bool) : Block := { b with dig := b.dig.set i v }

/-- The state with another block: what the operation of an event changes. -/
def State.withBlock (s : State) (b : Block) : State := { s with block := b }

/-- The state with another answer on the host port. -/
def State.answer (s : State) (r : Option Word32) : State := { s with hRdata := r }

/-! ### The host's access primitives -/

/-- `HostRead(addr)`, the value of a host read (R13, R51, R52). -/
def hostRead (b : Block) (a : HAddr) : Word32 :=
  if a < 0x4#4 then zext32 b.digits[regIndex a]
  else if a < 0x8#4 then zext32 b.intens[regIndex a]
  else if a = 0x8#4 then zext32 b.dpPos
  else if a = 0x9#4 then b.ms
  else if a = 0xA#4 then b.readReady
  else 0

/-- `HostWrite(addr, v)`, the effect of a host write (R13, R51, R53). -/
def hostWrite (b : Block) (a : HAddr) (v : Byte) : Block :=
  if a < 0x4#4 then b.setDigit (regIndex a) v
  else if a < 0x8#4 then b.setInten (regIndex a) v
  else if a = 0x8#4 then b.setDpPos v
  else if a = 0x9#4 then b.setMs 0
  else if a = 0xA#4 then b.clearReady
  else b

/-- The host access with `h_we = 0`: `h_rdata <- HostRead(h_addr)`, no state element changed (R71). -/
def hostReadStep (a : HAddr) (s : State) : State := s.answer (some (hostRead s.block a))

/-- The host access with `h_we = 1`: `HostWrite(h_addr, h_wdata)`, and no value returned (R71). -/
def hostWriteStep (a : HAddr) (v : Byte) (s : State) : State := (s.withBlock (hostWrite s.block a v)).answer none

/-- The host read of a reserved address: `h_rdata <- 0` (R58, R146; decision D8 of the spec). -/
def rsvdReadStep (s : State) : State := s.answer (some 0)

/-- The host write to a reserved address: no state element changed, and no value returned (R58, R71, R147; decision D8 of
the spec). -/
def rsvdWriteStep (s : State) : State := s.answer none

/-- The `dig` port: four output lines, line `i` at bit `i` (R70). -/
def Block.digPort (b : Block) : BitVec 4 :=
  BitVec.ofBool b.dig[3] ++ BitVec.ofBool b.dig[2] ++ BitVec.ofBool b.dig[1] ++ BitVec.ofBool b.dig[0]

end Sys2Proof.Machine
end

