-- ==== Sys2Proof/Machine/DisplayMux.lean ====
section
/-! DEFINITION. The display multiplexer: RENDER and TICK_MUX (spec/40_display_mux.md). -/

namespace Sys2Proof.Machine

/-- The segment outputs after `RENDER(code, dpflag)` from the outputs `old`: the pattern of a code in 0..16; for another
code nothing is driven and all eight outputs keep their values, decimal point included (R101, R102). -/
def renderedSeg (code : Byte) (dpflag : Bool) (old : Byte) : Byte :=
  match glyphCode code with
  | some g => segPattern dpflag g
  | none => old

/-- `RENDER(code, dpflag)`: the Segment Driver (R101). -/
def render (code : Byte) (dpflag : Bool) (b : Block) : Block := b.setSeg (renderedSeg code dpflag b.seg)

/-- `if intens[c] != 0 then dig[c] <- 1`: the assert decision, on the unclamped intensity of the new digit (R104 (e)). -/
def assertIfLit (c : DigitIx) (b : Block) : Block :=
  if b.intens[c] ≠ 0 then b.setDig c true else b

/-- Branch B of TICK_MUX: advance into digit `c`, render it and assert it if its intensity is nonzero (R103). The outgoing
digit's line is left alone (R105; decision D15 of the spec). -/
def advance (c : DigitIx) (b : Block) : Block :=
  assertIfLit c (render b.digits[c] (dpAt b.dpPos c) (b.startSlot c))

/-- TICK_MUX on the block: branch A ends the on-portion, branch B advances, branch C counts (R103). -/
def muxTick (b : Block) : Block :=
  let n := clampIntens b.intens[b.cur]
  let d1 := b.duty.toNat + 1
  if d1 = n then (b.setDuty d1).setDig b.cur false
  else if Config.dutyMax < d1 then advance (b.cur + 1) b
  else b.setDuty d1

/-- `TICK_MUX` (R103). -/
def execTickMux (s : State) : Host.Outcome State Fault Refusal := .next (s.withBlock (muxTick s.block))

end Sys2Proof.Machine
end

