-- ==== Sys2Proof/Machine/EdgeCapture.lean ====
section
/-! DEFINITION. Edge capture: EDGE, RD_RDY, CLR_RDY (spec/42_edge_capture.md). -/

namespace Sys2Proof.Machine

/-- `EDGE`: sets the Ready Flag and touches nothing else (R130). -/
def execEdge (s : State) : Host.Outcome State Fault Refusal := .next (s.withBlock s.block.setReady)

/-- `RD_RDY`: host read of address `0xA` (R131). -/
def execRdRdy (s : State) : Host.Outcome State Fault Refusal := .next (hostReadStep readyAddr s)

/-- `CLR_RDY`: host write to address `0xA`, data ignored (R132). -/
def execClrRdy (x : Byte) (s : State) : Host.Outcome State Fault Refusal := .next (hostWriteStep readyAddr x s)

end Sys2Proof.Machine
end

