-- ==== Sys2Proof/Machine/HostAccess.lean ====
section
/-! DEFINITION. Host access to the Display Buffer and to the reserved addresses (spec/43_host_access.md). -/

namespace Sys2Proof.Machine

/-- `RD_DIGIT i`: host read of address `0x0 + i` (R140). -/
def execRdDigit (i : DigitIx) (s : State) : Host.Outcome State Fault Refusal := .next (hostReadStep (digitAddr i) s)

/-- `RD_INTEN i`: host read of address `0x4 + i`, the stored value, not clamped (R141). -/
def execRdInten (i : DigitIx) (s : State) : Host.Outcome State Fault Refusal := .next (hostReadStep (intenAddr i) s)

/-- `RD_DP`: host read of address `0x8` (R142). -/
def execRdDp (s : State) : Host.Outcome State Fault Refusal := .next (hostReadStep dpAddr s)

/-- `RD_RSVD 0xB`: returns 0, no side effect (R58, R146). -/
def execRdRsvdB (s : State) : Host.Outcome State Fault Refusal := .next (rsvdReadStep s)

/-- `RD_RSVD a`: returns 0, no side effect, whichever reserved address `a` is (R58, R146). -/
def execRdRsvd (_a : HAddr) (s : State) : Host.Outcome State Fault Refusal := .next (rsvdReadStep s)

/-- `WR_DIGIT i, d`: host write to address `0x0 + i` (R143). -/
def execWrDigit (i : DigitIx) (d : Byte) (s : State) : Host.Outcome State Fault Refusal :=
  .next (hostWriteStep (digitAddr i) d s)

/-- `WR_INTEN i, d`: host write to address `0x4 + i` (R144). -/
def execWrInten (i : DigitIx) (d : Byte) (s : State) : Host.Outcome State Fault Refusal :=
  .next (hostWriteStep (intenAddr i) d s)

/-- `WR_DP d`: host write to address `0x8` (R145). -/
def execWrDp (d : Byte) (s : State) : Host.Outcome State Fault Refusal := .next (hostWriteStep dpAddr d s)

/-- `WR_RSVD 0xB`: changes no state element, data ignored (R58, R147). -/
def execWrRsvdB (_x : Byte) (s : State) : Host.Outcome State Fault Refusal := .next (rsvdWriteStep s)

/-- `WR_RSVD a`: changes no state element, data ignored, whichever reserved address `a` is (R58, R147). -/
def execWrRsvd (_a : HAddr) (_x : Byte) (s : State) : Host.Outcome State Fault Refusal := .next (rsvdWriteStep s)

end Sys2Proof.Machine
end

