-- ==== Sys2Proof/Machine/MsTimer.lean ====
section
/-! DEFINITION. The millisecond timer: TICK_MS, RD_MS, CLR_MS (spec/41_ms_timer.md). -/

namespace Sys2Proof.Machine

/-- TICK_MS on the block: `ms <- (ms + 1) mod 2^32` (R120). -/
def msTick (b : Block) : Block := b.setMs (b.ms + 1)

/-- `TICK_MS` (R120). -/
def execTickMs (s : State) : Host.Outcome State Fault Refusal := .next (s.withBlock (msTick s.block))

/-- `RD_MS`: host read of address `0x9` (R121). -/
def execRdMs (s : State) : Host.Outcome State Fault Refusal := .next (hostReadStep msAddr s)

/-- `CLR_MS`: host write to address `0x9`, data ignored (R122). -/
def execClrMs (x : Byte) (s : State) : Host.Outcome State Fault Refusal := .next (hostWriteStep msAddr x s)

end Sys2Proof.Machine
end

