-- ==== Sys2Proof/Machine/Reset.lean ====
section
/-! DEFINITION. RESET (spec/70_reset_and_hazards.md R220). -/

namespace Sys2Proof.Machine

/-- `RESET`: every state element to its reset value in one step, from any state (R36, R220). The answer on the host port is
no state element and stays (log entry 2). -/
def execReset (s : State) : Host.Outcome State Fault Refusal := .next (s.withBlock Block.reset)

end Sys2Proof.Machine
end

