-- ==== Sys2Proof/Machine/Dispatch.lean ====
section
/-! DEFINITION. The meaning of every operation, one arm per constructor (spec/30_encoding.md R74). -/

namespace Sys2Proof.Machine

def exec (i : Instr) (s : State) : Host.Outcome State Fault Refusal :=
  match i with
  | .rdDigit k => Sys2Proof.Machine.execRdDigit k s
  | .rdInten k => Sys2Proof.Machine.execRdInten k s
  | .rdDp => Sys2Proof.Machine.execRdDp s
  | .rdMs => Sys2Proof.Machine.execRdMs s
  | .rdRdy => Sys2Proof.Machine.execRdRdy s
  | .rdRsvdB => Sys2Proof.Machine.execRdRsvdB s
  | .rdRsvd a => Sys2Proof.Machine.execRdRsvd a s
  | .wrDigit k d => Sys2Proof.Machine.execWrDigit k d s
  | .wrInten k d => Sys2Proof.Machine.execWrInten k d s
  | .wrDp d => Sys2Proof.Machine.execWrDp d s
  | .clrMs x => Sys2Proof.Machine.execClrMs x s
  | .clrRdy x => Sys2Proof.Machine.execClrRdy x s
  | .wrRsvdB x => Sys2Proof.Machine.execWrRsvdB x s
  | .wrRsvd a x => Sys2Proof.Machine.execWrRsvd a x s
  | .reset => Sys2Proof.Machine.execReset s
  | .tickMux => Sys2Proof.Machine.execTickMux s
  | .tickMs => Sys2Proof.Machine.execTickMs s
  | .edge => Sys2Proof.Machine.execEdge s

end Sys2Proof.Machine
end

