-- ==== Sys2Proof/Machine/Fetch.lean ====
section
/-! DEFINITION. How the next stimulus reaches the block: the environment delivers one 16-bit word, which is one step
(spec/00_scope.md R17, spec/30_encoding.md R72). The block fetches no instruction (spec/10_state.md R27). -/

namespace Sys2Proof.Machine

/-- The step that a delivered word causes, the word already taken from the stimuli: the operation it decodes to, or a
refusal naming the clause of R76. -/
def deliver (w : StimWord) (s : State) : Host.Outcome State Fault Refusal :=
  match decode w with
  | .ok i => exec i s
  | .error why => .refused (.notAStimulus why)

/-- The stimuli with the word of `nbits` bits `w` delivered first, before whatever was pending. -/
def stimuliWithFirst (nbits w : Nat) (ws : List StimWord) : List StimWord := BitVec.ofNat 16 (w % 2 ^ nbits) :: ws

end Sys2Proof.Machine
end

