-- ==== Sys2Proof/Machine/Step.lean ====
section
/-! DEFINITION. One step of the machine (spec/00_scope.md R17): the environment's next stimulus, whichever agent's it is,
is one atomic step (spec/20_memory.md R56, R59). -/

namespace Sys2Proof.Machine

/-- One step: the oldest pending stimulus word is taken and the operation it encodes is executed. With no stimulus pending
nothing happens to the block, and the step leaves the state as it is (R196; DESIGN CHOICE, safe: log entry 5). -/
def step (s : State) : Host.Outcome State Fault Refusal :=
  match s.stimuli with
  | [] => .next s
  | w :: ws => deliver w { s with stimuli := ws }

/-- The state whose very next step runs the word `w`: the environment delivers it before whatever else is pending (the
host's fixed name; log entry 1). -/
def State.withFetchWord (s : State) (nbits w : Nat) : State :=
  { s with stimuli := stimuliWithFirst nbits w s.stimuli }

end Sys2Proof.Machine
end

