-- ==== Sys2Proof/Machine/Trace.lean ====
section
/-! DEFINITION. Traces (spec/00_scope.md R17): the state after a trace is the fold of the step function over it. With the
assembler's pseudo-operations and the textual form of an operation (spec/30_encoding.md R90, R91). -/

namespace Sys2Proof.Machine

/-- The state after a trace: the operations executed one after another (R17). -/
def runTrace : List Instr → State → Host.Outcome State Fault Refusal
  | [], s => .next s
  | i :: is, s =>
    match exec i s with
    | .next t => runTrace is t
    | .fault r => .fault r
    | .refused r => .refused r

/-! ### Pseudo-operations (R91) -/

/-- `REP n, <op>`. -/
def pseudoRep (n : Nat) (i : Instr) : List Instr := List.replicate n i

/-- `SLOT`. -/
def pseudoSlot : List Instr := pseudoRep Config.slotTicks .tickMux

/-- `FRAME`. -/
def pseudoFrame : List Instr := pseudoRep Config.frameTicks .tickMux

/-- `MS n`. -/
def pseudoMs (n : Nat) : List Instr := pseudoRep n .tickMs

/-- `SHOW d0, d1, d2, d3`. -/
def pseudoShow (d : Vector Byte 4) : List Instr :=
  [.wrDigit 0 d[0], .wrDigit 1 d[1], .wrDigit 2 d[2], .wrDigit 3 d[3]]

/-- `BRIGHT n0, n1, n2, n3`. -/
def pseudoBright (n : Vector Byte 4) : List Instr :=
  [.wrInten 0 n[0], .wrInten 1 n[1], .wrInten 2 n[2], .wrInten 3 n[3]]

/-- `TAKE`: the consumer sequence of R161, as the assembler emits it. -/
def pseudoTake : List Instr := [.rdMs, .clrMs 0, .clrRdy 0]

/-! ### Textual form (R74, R90) -/

/-- An operand of at most `n` values, or none. -/
def operandBelow (n v : Nat) : Option Nat := if v < n then some v else none

/-- The address operand of a reserved access: `0xB` to `0xF` (R90). -/
def rsvdOperand (a : Nat) : Option Nat := if 0xB ≤ a ∧ a < 0x10 then some a else none

/-- RD_RSVD of address `a`: the row of the table that holds it. -/
def rdRsvdAt (a : Nat) : Instr := if a = 0xB then .rdRsvdB else .rdRsvd (BitVec.ofNat 4 a)

/-- WR_RSVD of address `a`: the row of the table that holds it. -/
def wrRsvdAt (a : Nat) (x : Byte) : Instr := if a = 0xB then .wrRsvdB x else .wrRsvd (BitVec.ofNat 4 a) x

/-- One line of a trace's text, the mnemonic and its operands read as numbers: `i` in 0..3, `d` in 0..255, `a` in
`0xB`..`0xF`; `data = 0x00` for CLR_MS, CLR_RDY and, when `d` is omitted, WR_RSVD (R90). None where R90 gives the line no
meaning. -/
def assemble (mnemonic : String) (ops : List Nat) : Option Instr :=
  match mnemonic, ops with
  | "RD_DIGIT", [i] => (operandBelow 4 i).map fun i => .rdDigit (Fin.ofNat 4 i)
  | "RD_INTEN", [i] => (operandBelow 4 i).map fun i => .rdInten (Fin.ofNat 4 i)
  | "RD_DP", [] => some .rdDp
  | "RD_MS", [] => some .rdMs
  | "RD_RDY", [] => some .rdRdy
  | "RD_RSVD", [a] => (rsvdOperand a).map rdRsvdAt
  | "WR_DIGIT", [i, d] => do
    let i ← operandBelow 4 i
    let d ← operandBelow 256 d
    return .wrDigit (Fin.ofNat 4 i) (BitVec.ofNat 8 d)
  | "WR_INTEN", [i, d] => do
    let i ← operandBelow 4 i
    let d ← operandBelow 256 d
    return .wrInten (Fin.ofNat 4 i) (BitVec.ofNat 8 d)
  | "WR_DP", [d] => (operandBelow 256 d).map fun d => .wrDp (BitVec.ofNat 8 d)
  | "CLR_MS", [] => some (.clrMs 0)
  | "CLR_RDY", [] => some (.clrRdy 0)
  | "WR_RSVD", [a] => (rsvdOperand a).map fun a => wrRsvdAt a 0
  | "WR_RSVD", [a, d] => do
    let a ← rsvdOperand a
    let d ← operandBelow 256 d
    return wrRsvdAt a (BitVec.ofNat 8 d)
  | "RESET", [] => some .reset
  | "TICK_MUX", [] => some .tickMux
  | "TICK_MS", [] => some .tickMs
  | "EDGE", [] => some .edge
  | _, _ => none

/-- The operands of an operation as its text writes them, after the mnemonic of its row (R74, R90): none for CLR_MS and
CLR_RDY, whose data is ignored. -/
def textOperands : Instr → List Nat
  | .rdDigit i => [i.val]
  | .rdInten i => [i.val]
  | .rdDp => []
  | .rdMs => []
  | .rdRdy => []
  | .rdRsvdB => [0xB]
  | .rdRsvd a => [a.toNat]
  | .wrDigit i d => [i.val, d.toNat]
  | .wrInten i d => [i.val, d.toNat]
  | .wrDp d => [d.toNat]
  | .clrMs _ => []
  | .clrRdy _ => []
  | .wrRsvdB x => [0xB, x.toNat]
  | .wrRsvd a x => [a.toNat, x.toNat]
  | .reset => []
  | .tickMux => []
  | .tickMs => []
  | .edge => []

end Sys2Proof.Machine
end

