-- ==== Sys2Proof/Machine/HostSoftware.lean ====
section
/-! DEFINITION. The host software (spec/44_host_software.md): OUTSIDE the block (spec/00_scope.md R6). Neither State nor step
uses anything of this file. It writes down the Power Formatter, the Digit Formatter and the main loop as the source
transcribes them, and the host as an agent that issues the block's operations, for a model of the whole device. -/

namespace Sys2Proof.Machine

/-! ### Power Formatter -/

/-- `power(period)`: 0 for period 0, else `floor(3600000 / period)` (R163). -/
def power (period : Word32) : Nat := if period = 0 then 0 else 3600000 / period.toNat

/-- `round(x/d)`: add half the divisor, then integer-divide (R165). -/
def roundDiv (x d : Nat) : Nat := (x + d / 2) / d

/-- What the Power Formatter emits: a value, a decimal-point position and the flag "show leading zeros" (R164). -/
structure Reading where
  value : Nat
  dp : Int
  showZeros : Bool
  deriving DecidableEq, Repr

/-- The scale table, rows top to bottom (R164). -/
def scaleReading (p : Nat) : Reading :=
  if 999500 ≤ p then ⟨roundDiv p 1000, 0, true⟩
  else if 99950 ≤ p then ⟨roundDiv p 100, 3, true⟩
  else if 9995 ≤ p then ⟨roundDiv p 10, 2, true⟩
  else if 999 < p then ⟨p, 1, true⟩
  else if 99 < p then ⟨p, 1, true⟩
  else if 9 < p then ⟨p, 2, true⟩
  else ⟨p, 3, true⟩

/-- `power_format(period)` (R164). -/
def powerFormat (period : Word32) : Reading := scaleReading (power period)

/-! ### Digit Formatter -/

/-- The four decimal digits, most significant first (R168). -/
def decimalDigits (value : Nat) : Vector Nat 4 :=
  #v[value / 1000 % 10, value / 100 % 10, value / 10 % 10, value % 10]

/-- The glyph codes written: the four decimal digits, or the overflow glyph in all four positions (R168, R169). -/
def formatDigits (value : Nat) : Vector Byte 4 :=
  if value ≤ 9999 then (decimalDigits value).map (BitVec.ofNat 8)
  else Vector.replicate 4 (BitVec.ofNat 8 Config.overflowGlyph.val)

/-- `BRIGHTNESS` as write data (R170). -/
def brightnessByte : Byte := BitVec.ofNat 8 Config.brightness.val

/-- Whether leading-zero suppression blanks position `i` (R171); the `dp` tested is the argument of the call (decision D24
of the spec). -/
def blanks (r : Reading) (i : DigitIx) : Bool :=
  !r.showZeros &&
    match i with
    | 0 => decide (r.value < 1000) && decide (r.dp ≠ 1)
    | 1 => decide (r.value < 100) && decide (r.dp ≠ 2)
    | 2 => decide (r.value < 10) && decide (r.dp ≠ 3)
    | 3 => false

/-- Whether the Digit Formatter writes the decimal-point position: only for 1 to 4, else the position stays ("sticky",
R172). -/
def writesDp (r : Reading) : Bool := decide (1 ≤ r.dp) && decide (r.dp ≤ 4)

/-- The host accesses of `digit_format(value, dp, show)`, in R173's order: digits, intensities, blanked positions in index
order, decimal point. -/
def digitFormat (r : Reading) : List Instr :=
  pseudoShow (formatDigits r.value)
    ++ pseudoBright (Vector.replicate 4 brightnessByte)
    ++ (([0, 1, 2] : List DigitIx).filter (blanks r)).map (fun i => Instr.wrInten i 0)
    ++ (if writesDp r then [Instr.wrDp (BitVec.ofInt 8 r.dp)] else [])

/-- The start-up call `digit_format(0, 1, false)` (R174, R223). -/
def bootAccesses : List Instr := digitFormat ⟨0, 1, false⟩

/-! ### Main loop -/

/-- Where the main loop stands between two of its accesses (R161). -/
inductive HostPhase where
  /-- Polling READY. -/
  | poll
  /-- READY was 1: MSCNT is read next. -/
  | sample
  /-- The counter was read into `period`: MSCNT is cleared next. -/
  | clearMs (period : Word32)
  /-- READY is cleared next. -/
  | clearReady (period : Word32)
  /-- The accesses of the Digit Formatter still to issue; with none left the loop polls again. -/
  | format (todo : List Instr)
  deriving DecidableEq, Repr

/-- The next access the main loop issues (R161; CLR_MS before CLR_RDY is decision D19 of the spec). -/
def HostPhase.access : HostPhase → Instr
  | .poll => .rdRdy
  | .sample => .rdMs
  | .clearMs _ => .clrMs 0
  | .clearReady _ => .clrRdy 0
  | .format [] => .rdRdy
  | .format (i :: _) => i

/-- Where the loop goes after a poll that returned `r`: on to the sample iff bit 0 is 1 (R161, R162). -/
def afterPoll (r : Option Word32) : HostPhase :=
  match r with
  | some v => if v.getLsbD 0 then .sample else .poll
  | none => .poll

/-- Where the main loop stands after its access, given what the port answered (R161). -/
def HostPhase.after (r : Option Word32) : HostPhase → HostPhase
  | .poll => afterPoll r
  | .sample =>
    match r with
    | some period => .clearMs period
    | none => .sample
  | .clearMs period => .clearReady period
  | .clearReady period => .format (digitFormat (powerFormat period))
  | .format [] => afterPoll r
  | .format (_ :: is) => .format is

/-- The host about to issue the start-up call (R174). -/
def HostPhase.boot : HostPhase := .format bootAccesses

/-- What is left to issue are host accesses: the host takes no step of another agent (R160, R203). It holds at start-up and
every turn of the device keeps it. -/
def HostPhase.issuesOnlyAccesses : HostPhase → Bool
  | .format todo => todo.all fun i => decide (i.agent = .host)
  | .poll => true
  | .sample => true
  | .clearMs _ => true
  | .clearReady _ => true

/-! ### The whole device -/

/-- What the environment delivers on the block's event ports (R193). A host access is no event, so only the host's own turn
writes the Display Buffer and clears `ms` and `ready`, but for RESET (R160, R200). -/
inductive DeviceEvent where
  /-- One occurrence on `rst`. Whether the host software starts again with the block the spec does not say, so the
  environment says it, each time (DESIGN CHOICE, safe: log entry 13). -/
  | rst (hostRestarts : Bool)
  /-- One occurrence on `tick_mux`. -/
  | tickMux
  /-- One occurrence on `tick_ms`. -/
  | tickMs
  /-- One occurrence on `edge_evt`. -/
  | edgeEvt
  deriving DecidableEq, Repr

/-- The operation that an occurrence of the event causes (R193). -/
def DeviceEvent.op : DeviceEvent → Instr
  | .rst _ => .reset
  | .tickMux => .tickMux
  | .tickMs => .tickMs
  | .edgeEvt => .edge

/-- Where the host stands after an event. A handler leaves it where it was: a handler performs no host access and does not
call back into the main loop (R199). What a RESET in mid-run does to the host the spec does not say: it restarts at the
start-up call or stays where it was, both admitted (DESIGN CHOICE, log entry 13). -/
def HostPhase.afterEvent : DeviceEvent → HostPhase → HostPhase
  | .rst hostRestarts, p => if hostRestarts then .boot else p
  | .tickMux, p => p
  | .tickMs, p => p
  | .edgeEvt, p => p

/-- The whole device: the block with its one host (R200; decision D22 of the spec). -/
structure Device where
  state : State
  host : HostPhase
  deriving DecidableEq, Repr

/-- The device after the block's reset, the host about to write the resting display (R174, R222, R223). -/
def Device.boot : Device := ⟨State.reset, .boot⟩

/-- The host's turn: one access, and the loop moves on (R161). -/
def Device.hostTurn (d : Device) : Host.Outcome Device Fault Refusal :=
  match exec d.host.access d.state with
  | .next t => .next ⟨t, d.host.after t.hRdata⟩
  | .fault r => .fault r
  | .refused r => .refused r

/-- An event agent's turn: the step of its operation (R193, R194). Where the host then stands is `HostPhase.afterEvent`,
which the spec leaves open for RESET (DESIGN CHOICE, log entry 13). -/
def Device.eventTurn (event : DeviceEvent) (d : Device) : Host.Outcome Device Fault Refusal :=
  match exec event.op d.state with
  | .next t => .next ⟨t, d.host.afterEvent event⟩
  | .fault r => .fault r
  | .refused r => .refused r

end Sys2Proof.Machine
end

