-- ==== Sys2Proof/Machine/Ports.lean ====
section
/-! DEFINITION. The step that an occurrence on the input ports causes (spec/30_encoding.md R70, R71), written from the
ports' own description: a second view of the operations, beside exec's arms. -/

namespace Sys2Proof.Machine

/-- What one host access or one event does: the triple (`h_we`, `h_addr`, `h_wdata`) is a HostRead or a HostWrite (R71);
one occurrence on an event port is one step of its operation (R70, R73). -/
def portStep (p : PortEvent) (s : State) : State :=
  match p with
  | .access false a _ => s.answer (some (hostRead s.block a))
  | .access true a v => (s.withBlock (hostWrite s.block a v)).answer none
  | .rst => s.withBlock Block.reset
  | .tickMux => s.withBlock (muxTick s.block)
  | .tickMs => s.withBlock (msTick s.block)
  | .edgeEvt => s.withBlock s.block.setReady

end Sys2Proof.Machine
end

