-- ==== Sys2Proof/Safety.lean ====
section
/-! DEFINITION. What claims speak of: the invariants of the block, the premises they need about the stimuli to come, and
what makes an operation touch an element. -/

namespace Sys2Proof.Machine

/-- The cursor's documented range: `duty` is in 0..100 (R20, R28). -/
def DutyInRange (s : State) : Prop := s.block.duty.toNat ≤ Config.dutyMax

/-- The documented invariant of the Display Buffer (R24), an obligation on the host that the hardware does not enforce:
valid glyph codes and intensities of at most 100. -/
def BufferLegal (b : Block) : Prop :=
  ∀ i : DigitIx, b.digits[i].toNat ≤ 16 ∧ b.intens[i].toNat ≤ Config.dutyMax

/-- The two states have the same answer on the host port and the same stimuli to come. -/
def SameEnvironment (s t : State) : Prop := t.hRdata = s.hRdata ∧ t.stimuli = s.stimuli

/-- At most one digit-select output is asserted. -/
def AtMostOneLit (b : Block) : Prop := ∀ i j : DigitIx, b.dig[i] = true → b.dig[j] = true → i = j

/-- A digit that is asserted is the one whose slot is in progress, and its on-portion is not over: the steady state of R105. -/
def LitOnlyInOwnSlot (b : Block) : Prop :=
  ∀ i : DigitIx, b.dig[i] = true → i = b.cur ∧ b.duty.toNat < clampIntens b.intens[i]

/-- The operation writes some intensity register. -/
def writesInten : Instr → Bool
  | .wrInten _ _ => true
  | _ => false

/-- No pending stimulus writes an intensity register (R105's "intensity constant"). -/
def NoIntenWritePending (s : State) : Prop :=
  ∀ w ∈ s.stimuli, ∀ i : Instr, decode w = .ok i → writesInten i = false

/-- No pending stimulus writes a nonzero intensity to digit position `k` (R110's premise, over the stimuli to come). -/
def StaysBlankPending (k : DigitIx) (s : State) : Prop :=
  ∀ w ∈ s.stimuli, ∀ d : Byte, decode w = .ok (.wrInten k d) → d = 0

/-- The steady display: intensities that no pending stimulus changes, and no digit asserted outside its on-portion. -/
def SteadyDisplay (s : State) : Prop := LitOnlyInOwnSlot s.block ∧ NoIntenWritePending s

/-- Digit position `k` is blanked and stays so: intensity 0, not asserted, and no pending stimulus raises its intensity
(R110). -/
def BlankedDigit (k : DigitIx) (s : State) : Prop :=
  s.block.intens[k] = 0 ∧ s.block.dig[k] = false ∧ StaysBlankPending k s

/-- The operation writes the Display Buffer. -/
def writesBuffer : Instr → Bool
  | .wrDigit _ _ => true
  | .wrInten _ _ => true
  | .wrDp _ => true
  | .reset => true
  | _ => false

/-- The operation changes `ms` (R123: TICK_MS, CLR_MS and RESET only). -/
def writesMs : Instr → Bool
  | .tickMs => true
  | .clrMs _ => true
  | .reset => true
  | _ => false

/-- The operation clears `ready` (R132, R220). -/
def clearsReady : Instr → Bool
  | .clrRdy _ => true
  | .reset => true
  | _ => false

/-- The two blocks have the same Display Buffer. -/
def SameBuffer (b c : Block) : Prop := b.digits = c.digits ∧ b.intens = c.intens ∧ b.dpPos = c.dpPos

/-- The two blocks have the same cursor. -/
def SameCursor (b c : Block) : Prop := b.cur = c.cur ∧ b.duty = c.duty

/-- The two blocks drive the same outputs. -/
def SameOutputs (b c : Block) : Prop := b.seg = c.seg ∧ b.dig = c.dig

/-- A 16-bit word is not a stimulus: the five clauses of R76. -/
def NotAStimulusWord (w : StimWord) : Prop :=
  fieldKind w = 0b11#2
    ∨ fieldZero w ≠ 0b00#2
    ∨ (fieldKind w = 0b00#2 ∧ fieldData w ≠ 0x00#8)
    ∨ (fieldKind w = 0b10#2 ∧ fieldData w ≠ 0x00#8)
    ∨ (fieldKind w = 0b10#2 ∧ 4 ≤ (fieldSel w).toNat)

end Sys2Proof.Machine
end

