-- ==== Sys2Proof/Certificates/Slice0/Obligations.lean ====
section
/-! DEFINITION. The statements for the provers, from the numbered rules of spec/. A statement about an operation names its
next state by its block and by the host port's answer; what the model's own field `stimuli` does is stated once
(OperationsLeaveStimuliAndEventsLeaveThePort). -/

open Sys2Proof Sys2Proof.Machine

/-! ### Reset -/

/-- R220, R36: from any state, RESET sets every element to its reset value in one step, and that is the initial state. (The
values are decisions D14 and D23 of the spec.) -/
def Obligations.ResetSetsEveryElement : Prop :=
  decode 0x8000#16 = .ok .reset ∧
  (∀ s : State, ∃ t, exec .reset s = .next t ∧
    t.block =
      { digits := #v[0, 0, 0, 0], intens := #v[0, 0, 0, 0], dpPos := 0, cur := 0, duty := 0, seg := 0x00,
        dig := #v[false, false, false, false], ms := 0, ready := false }) ∧
  State.reset.block =
    { digits := #v[0, 0, 0, 0], intens := #v[0, 0, 0, 0], dpPos := 0, cur := 0, duty := 0, seg := 0x00,
      dig := #v[false, false, false, false], ms := 0, ready := false }

/-! ### The host's access primitives -/

/-- R52: HostRead, address by address; a host read changes no state element. -/
def Obligations.HostReadFollowsTheRegisterMap : Prop :=
  ∀ b : Block,
    (∀ i : DigitIx, hostRead b (BitVec.ofNat 4 (0x0 + i.val)) = b.digits[i].setWidth 32) ∧
    (∀ i : DigitIx, hostRead b (BitVec.ofNat 4 (0x4 + i.val)) = b.intens[i].setWidth 32) ∧
    hostRead b 0x8 = b.dpPos.setWidth 32 ∧
    hostRead b 0x9 = b.ms ∧
    hostRead b 0xA = (if b.ready then 1 else 0) ∧
    (∀ a : HAddr, 0xB ≤ a.toNat → hostRead b a = 0) ∧
    (∀ (s : State) (a : HAddr) (x : Byte), (portStep (.access false a x) s).block = s.block)

/-- R53: HostWrite, address by address: at most one state element changes, and nothing is returned. -/
def Obligations.HostWriteFollowsTheRegisterMap : Prop :=
  ∀ (b : Block) (v : Byte),
    (∀ i : DigitIx, hostWrite b (BitVec.ofNat 4 (0x0 + i.val)) v = { b with digits := b.digits.set i v }) ∧
    (∀ i : DigitIx, hostWrite b (BitVec.ofNat 4 (0x4 + i.val)) v = { b with intens := b.intens.set i v }) ∧
    hostWrite b 0x8 v = { b with dpPos := v } ∧
    hostWrite b 0x9 v = { b with ms := 0 } ∧
    hostWrite b 0xA v = { b with ready := false } ∧
    (∀ a : HAddr, 0xB ≤ a.toNat → hostWrite b a v = b) ∧
    (∀ (s : State) (a : HAddr), (portStep (.access true a v) s).hRdata = none)

/-- R71: every operation is exactly the step its input ports cause; a read answers HostRead, a write answers nothing. -/
def Obligations.OperationIsTheStepOfItsPorts : Prop :=
  (∀ (i : Instr) (s : State), i.wf = true → exec i s = .next (portStep i.port s)) ∧
  (∀ (a : HAddr) (v : Byte) (s : State), (portStep (.access false a v) s).hRdata = some (hostRead s.block a)) ∧
  (∀ (a : HAddr) (v : Byte) (s : State),
    (portStep (.access true a v) s).block = hostWrite s.block a v ∧ (portStep (.access true a v) s).hRdata = none)

/-! ### Host reads -/

/-- R140: RD_DIGIT i returns the stored value, zero-extended, and changes no state. -/
def Obligations.RdDigitReturnsTheRegister : Prop :=
  ∀ i : DigitIx,
    decode (0x0000#16 ||| (BitVec.ofNat 16 i.val <<< 8)) = .ok (.rdDigit i) ∧
    (∀ s : State, ∃ t, exec (.rdDigit i) s = .next t ∧
      t.hRdata = some (s.block.digits[i].setWidth 32) ∧ t.block = s.block) ∧
    (∀ (d : Byte) (s t u : State), exec (.wrDigit i d) s = .next t → exec (.rdDigit i) t = .next u →
      u.hRdata = some (d.setWidth 32))

/-- R141: RD_INTEN i returns the stored value, not clamped, zero-extended, and changes no state. -/
def Obligations.RdIntenReturnsTheRegister : Prop :=
  ∀ i : DigitIx,
    decode (0x0400#16 ||| (BitVec.ofNat 16 i.val <<< 8)) = .ok (.rdInten i) ∧
    (∀ s : State, ∃ t, exec (.rdInten i) s = .next t ∧
      t.hRdata = some (s.block.intens[i].setWidth 32) ∧ t.block = s.block) ∧
    (∀ (d : Byte) (s t u : State), exec (.wrInten i d) s = .next t → exec (.rdInten i) t = .next u →
      u.hRdata = some (d.setWidth 32))

/-- R142: RD_DP returns the stored position, zero-extended, and changes no state. -/
def Obligations.RdDpReturnsTheRegister : Prop :=
  decode 0x0800#16 = .ok .rdDp ∧
  (∀ s : State, ∃ t, exec .rdDp s = .next t ∧ t.hRdata = some (s.block.dpPos.setWidth 32) ∧ t.block = s.block)

/-- R121: RD_MS returns all 32 bits of the counter and changes no state; the value is the number of TICK_MS steps since the
latest RESET or CLR_MS, modulo 2^32, whatever other steps are interleaved. -/
def Obligations.RdMsReturnsTheTickCount : Prop :=
  decode 0x0900#16 = .ok .rdMs ∧
  (∀ s : State, ∃ t, exec .rdMs s = .next t ∧ t.hRdata = some s.block.ms ∧ t.block = s.block) ∧
  (∀ (x : Byte) (clear : Instr) (is : List Instr) (s : State), clear = .reset ∨ clear = .clrMs x →
    (∀ j ∈ is, j ≠ .reset ∧ ∀ y : Byte, j ≠ .clrMs y) →
    ∃ t u, runTrace (clear :: is) s = .next t ∧ exec .rdMs t = .next u ∧
      u.hRdata = some (BitVec.ofNat 32 (is.count .tickMs)))

/-- R131: RD_RDY returns the flag in bit 0, bits 31:1 zero, and changes no state. -/
def Obligations.RdRdyReturnsTheFlag : Prop :=
  decode 0x0A00#16 = .ok .rdRdy ∧
  (∀ s : State, ∃ t, exec .rdRdy s = .next t ∧
    t.hRdata = some (if s.block.ready then 0x00000001 else 0x00000000) ∧ t.block = s.block)

/-- R146: RD_RSVD, both patterns: a read of address 0xB to 0xF returns 0 and changes no state (decision D8 of the spec). -/
def Obligations.RdRsvdReturnsZero : Prop :=
  decode 0x0B00#16 = .ok .rdRsvdB ∧
  (∀ s : State, ∃ t, exec .rdRsvdB s = .next t ∧ t.hRdata = some 0 ∧ t.block = s.block) ∧
  (∀ a : HAddr, 0xC ≤ a.toNat →
    decode (0x0000#16 ||| (a.setWidth 16 <<< 8)) = .ok (.rdRsvd a) ∧
    ∀ s : State, ∃ t, exec (.rdRsvd a) s = .next t ∧ t.hRdata = some 0 ∧ t.block = s.block)

/-! ### Host writes -/

/-- R143: WR_DIGIT i, d stores d as it is in digits[i] and changes no other state element. -/
def Obligations.WrDigitStoresTheData : Prop :=
  ∀ (i : DigitIx) (d : Byte),
    decode (0x4000#16 ||| (BitVec.ofNat 16 i.val <<< 8) ||| d.setWidth 16) = .ok (.wrDigit i d) ∧
    ∀ s : State, ∃ t, exec (.wrDigit i d) s = .next t ∧
      t.block = { s.block with digits := s.block.digits.set i d } ∧ t.hRdata = none

/-- R144: WR_INTEN i, d stores d as it is in intens[i] and changes no other state element; in particular not dig[i]. -/
def Obligations.WrIntenStoresTheData : Prop :=
  ∀ (i : DigitIx) (d : Byte),
    decode (0x4400#16 ||| (BitVec.ofNat 16 i.val <<< 8) ||| d.setWidth 16) = .ok (.wrInten i d) ∧
    ∀ s : State, ∃ t, exec (.wrInten i d) s = .next t ∧
      t.block = { s.block with intens := s.block.intens.set i d } ∧ t.hRdata = none

/-- R145: WR_DP d stores d as it is and changes no other state element; 0 and 5..255 light the point of no digit, and p in
1..4 that of digit p - 1. -/
def Obligations.WrDpStoresTheData : Prop :=
  ∀ d : Byte,
    decode (0x4800#16 ||| d.setWidth 16) = .ok (.wrDp d) ∧
    (∀ s : State, ∃ t, exec (.wrDp d) s = .next t ∧ t.block = { s.block with dpPos := d } ∧ t.hRdata = none) ∧
    (∀ c : DigitIx, dpAt d c = true ↔ 1 ≤ d.toNat ∧ d.toNat ≤ 4 ∧ c.val = d.toNat - 1)

/-- R122: CLR_MS sets ms to 0 whatever the data and changes nothing else; after CLR_MS and k TICK_MS, ms = k (mod 2^32). -/
def Obligations.ClrMsRestartsTheCount : Prop :=
  ∀ x : Byte,
    decode (0x4900#16 ||| x.setWidth 16) = .ok (.clrMs x) ∧
    (∀ s : State, ∃ t, exec (.clrMs x) s = .next t ∧ t.block = { s.block with ms := 0 } ∧ t.hRdata = none) ∧
    (∀ (k : Nat) (s : State), ∃ t, runTrace (.clrMs x :: pseudoMs k) s = .next t ∧ t.block.ms = BitVec.ofNat 32 k)

/-- R132: CLR_RDY clears the flag whatever the data and changes nothing else; an EDGE just before it is wiped. -/
def Obligations.ClrRdyClearsTheFlag : Prop :=
  ∀ x : Byte,
    decode (0x4A00#16 ||| x.setWidth 16) = .ok (.clrRdy x) ∧
    (∀ s : State, ∃ t, exec (.clrRdy x) s = .next t ∧ t.block = { s.block with ready := false } ∧ t.hRdata = none) ∧
    (∀ s : State, ∃ t, runTrace [.edge, .clrRdy x] s = .next t ∧ t.block = { s.block with ready := false })

/-- R147: WR_RSVD, both patterns: a write to address 0xB to 0xF changes no state (decision D8 of the spec). -/
def Obligations.WrRsvdChangesNothing : Prop :=
  ∀ x : Byte,
    decode (0x4B00#16 ||| x.setWidth 16) = .ok (.wrRsvdB x) ∧
    (∀ s : State, ∃ t, exec (.wrRsvdB x) s = .next t ∧ t.block = s.block ∧ t.hRdata = none) ∧
    (∀ a : HAddr, 0xC ≤ a.toNat →
      decode (0x4000#16 ||| (a.setWidth 16 <<< 8) ||| x.setWidth 16) = .ok (.wrRsvd a x) ∧
      ∀ s : State, ∃ t, exec (.wrRsvd a x) s = .next t ∧ t.block = s.block ∧ t.hRdata = none)

/-! ### Events -/

/-- R120: TICK_MS adds exactly 1 modulo 2^32 and touches nothing else. -/
def Obligations.TickMsIncrementsTheCounter : Prop :=
  decode 0x8200#16 = .ok .tickMs ∧
  ∀ s : State, ∃ t, exec .tickMs s = .next t ∧
    t.block = { s.block with ms := BitVec.ofNat 32 ((s.block.ms.toNat + 1) % 2 ^ 32) }

/-- R130: EDGE sets the Ready Flag and touches nothing else. -/
def Obligations.EdgeSetsTheFlag : Prop :=
  decode 0x8300#16 = .ok .edge ∧
  ∀ s : State, ∃ t, exec .edge s = .next t ∧ t.block = { s.block with ready := true }

/-- R79: the pattern is the decimal point at bit 7 and the glyph at bits 6..0, in both of the rule's forms. -/
def Obligations.SegPatternIsPointAboveGlyph : Prop :=
  ∀ (dpflag : Bool) (g : Fin 17),
    segPattern dpflag g = ((BitVec.ofBool dpflag).setWidth 8 <<< 7) ||| (Config.glyph g).setWidth 8 ∧
    (segPattern dpflag g).getLsbD 7 = dpflag ∧
    ∀ k : Nat, k < 7 → (segPattern dpflag g).getLsbD k = (Config.glyph g).getLsbD k

/-- R101: RENDER of a code in 0..16 replaces all eight segment outputs; of a code above 16 it does nothing. -/
def Obligations.RenderDrivesOrKeepsTheSegments : Prop :=
  ∀ (code : Byte) (dpflag : Bool) (b : Block),
    (∀ g : Fin 17, g.val = code.toNat →
      render code dpflag b =
        { b with seg := ((BitVec.ofBool dpflag).setWidth 8 <<< 7) ||| (Config.glyph g).setWidth 8 }) ∧
    (16 < code.toNat → render code dpflag b = b)

/-- R103: TICK_MUX, its three branches, each with its whole effect on the block. -/
def Obligations.TickMuxTakesOneOfThreeBranches : Prop :=
  decode 0x8100#16 = .ok .tickMux ∧
  ∀ (s : State) (n d1 : Nat) (c : DigitIx),
    n = min s.block.intens[s.block.cur].toNat 100 → d1 = s.block.duty.toNat + 1 →
    c.val = (s.block.cur.val + 1) % 4 →
    (d1 = n → ∃ t, exec .tickMux s = .next t ∧
      t.block = { s.block with duty := BitVec.ofNat 7 d1, dig := s.block.dig.set s.block.cur false }) ∧
    (d1 ≠ n → 100 < d1 → ∃ t, exec .tickMux s = .next t ∧
      t.block =
        { s.block with
          cur := c
          duty := 0
          seg :=
            if h : s.block.digits[c].toNat < 17 then
              ((BitVec.ofBool (s.block.dpPos.toNat == c.val + 1)).setWidth 8 <<< 7) |||
                (Config.glyph ⟨s.block.digits[c].toNat, h⟩).setWidth 8
            else s.block.seg
          dig := if s.block.intens[c] ≠ 0 then s.block.dig.set c true else s.block.dig }) ∧
    (d1 ≠ n → d1 ≤ 100 → ∃ t, exec .tickMux s = .next t ∧
      t.block = { s.block with duty := BitVec.ofNat 7 d1 })

/-! ### What no operation does -/

/-- R190: every operation is total: it completes in one step, in every state; no step faults. -/
def Obligations.EveryOperationCompletes : Prop :=
  (∀ (i : Instr) (s : State), ∃ t, exec i s = .next t) ∧ (∀ (s : State) (r : Fault), step s ≠ .fault r)

/-- R25: the nine Display Buffer registers are distinct storage, a write to one changes no other, and no operation but a
host write to the Display Buffer and RESET changes any of them. -/
def Obligations.BufferChangesOnlyByItsWriter : Prop :=
  ∀ (i : Instr) (s t : State), exec i s = .next t →
    (writesBuffer i = false → SameBuffer t.block s.block) ∧
    (∀ (k : DigitIx) (d : Byte), i = .wrDigit k d →
      (∀ j : DigitIx, j ≠ k → t.block.digits[j] = s.block.digits[j]) ∧
      t.block.intens = s.block.intens ∧ t.block.dpPos = s.block.dpPos) ∧
    (∀ (k : DigitIx) (d : Byte), i = .wrInten k d →
      (∀ j : DigitIx, j ≠ k → t.block.intens[j] = s.block.intens[j]) ∧
      t.block.digits = s.block.digits ∧ t.block.dpPos = s.block.dpPos) ∧
    (∀ d : Byte, i = .wrDp d → t.block.digits = s.block.digits ∧ t.block.intens = s.block.intens)

/-- R27: each TICK_MUX step adds 1 to duty and leaves cur, or sets duty to 0 and cur to (cur + 1) mod 4; only TICK_MUX and
RESET write the cursor, and only TICK_MUX reads it. -/
def Obligations.CursorBelongsToTickMux : Prop :=
  (∀ s t : State, exec .tickMux s = .next t →
    (t.block.duty.toNat = s.block.duty.toNat + 1 ∧ t.block.cur = s.block.cur) ∨
    (t.block.duty = 0 ∧ t.block.cur.val = (s.block.cur.val + 1) % 4)) ∧
  (∀ (i : Instr) (s t : State), i ≠ .tickMux → i ≠ .reset → exec i s = .next t → SameCursor t.block s.block) ∧
  (∀ (i : Instr) (s t : State) (c : DigitIx) (d : BitVec 7), i ≠ .tickMux → exec i s = .next t →
    ∃ u, exec i (s.withBlock { s.block with cur := c, duty := d }) = .next u ∧ u.hRdata = t.hRdata ∧
      { u.block with cur := t.block.cur, duty := t.block.duty } = t.block)

/-- R30: dig[k] is set to 1 only by a TICK_MUX advance into digit k with a nonzero intensity, and to 0 only by a TICK_MUX
step with cur = k whose incremented duty counter equals min(intens[k], 100), and by RESET. -/
def Obligations.DigChangesOnlyAtItsOwnTicks : Prop :=
  ∀ (i : Instr) (s t : State) (k : DigitIx), exec i s = .next t →
    (s.block.dig[k] = false → t.block.dig[k] = true →
      i = .tickMux ∧ 100 < s.block.duty.toNat + 1 ∧ k.val = (s.block.cur.val + 1) % 4 ∧ t.block.cur = k ∧
        t.block.duty = 0 ∧ s.block.intens[k] ≠ 0) ∧
    (s.block.dig[k] = true → t.block.dig[k] = false →
      i = .reset ∨
        (i = .tickMux ∧ s.block.cur = k ∧ s.block.duty.toNat + 1 = min s.block.intens[k].toNat 100))

/-- R29: seg is written only at a TICK_MUX advance, and then only if the new digit's code is in range, and by RESET. -/
def Obligations.SegChangesOnlyAtAnAdvance : Prop :=
  ∀ (i : Instr) (s t : State), exec i s = .next t → t.block.seg ≠ s.block.seg →
    i = .reset ∨
      (i = .tickMux ∧ 100 < s.block.duty.toNat + 1 ∧ t.block.duty = 0 ∧
        t.block.cur.val = (s.block.cur.val + 1) % 4 ∧ s.block.digits[t.block.cur].toNat ≤ 16)

/-- R32: EDGE sets the flag, a host write clears it whatever the data, no other operation sets it, and no operation but the
host read of it depends on it. -/
def Obligations.ReadyIsSetByEdgeAndReadByNobodyElse : Prop :=
  (∀ s t : State, exec .edge s = .next t → t.block.ready = true) ∧
  (∀ (x : Byte) (s t : State), exec (.clrRdy x) s = .next t → t.block.ready = false) ∧
  (∀ s t : State, exec .rdRdy s = .next t →
    t.hRdata = some ((BitVec.ofBool s.block.ready).setWidth 32) ∧ t.block = s.block) ∧
  (∀ (i : Instr) (s t : State), i ≠ .edge → exec i s = .next t → t.block.ready = true → s.block.ready = true) ∧
  (∀ (i : Instr) (s t : State) (v : Bool), i ≠ .rdRdy → exec i s = .next t →
    ∃ u, exec i (s.withBlock { s.block with ready := v }) = .next u ∧ u.hRdata = t.hRdata ∧
      { u.block with ready := t.block.ready } = t.block)

/-- R37: MUX has no path to ms or ready nor to the Display Buffer, MS none to anything but ms, CAP none to anything but
ready, and the host port reaches only the registers of its map, each read without a side effect. -/
def Obligations.EachAgentWritesOnlyItsOwnState : Prop :=
  ∀ (i : Instr) (s t : State), exec i s = .next t →
    (i.agent = .mux →
      t.block.ms = s.block.ms ∧ t.block.ready = s.block.ready ∧ SameBuffer t.block s.block) ∧
    (i.agent = .ms → t.block = { s.block with ms := t.block.ms }) ∧
    (i.agent = .cap → t.block = { s.block with ready := t.block.ready }) ∧
    (i.agent = .host →
      SameCursor t.block s.block ∧ SameOutputs t.block s.block ∧
      (t.block.ms = s.block.ms ∨ t.block.ms = 0) ∧ (t.block.ready = s.block.ready ∨ t.block.ready = false) ∧
      (t.hRdata ≠ none → t.block = s.block))

/-- The model's own conventions (log entries 1 and 2, no rule of the spec): no operation touches the stimuli still to come,
and an event leaves the host port's last answer. -/
def Obligations.OperationsLeaveStimuliAndEventsLeaveThePort : Prop :=
  ∀ (i : Instr) (s t : State), exec i s = .next t →
    t.stimuli = s.stimuli ∧ (i.agent ≠ .host → t.hRdata = s.hRdata)

/-! ### Interleaving -/

/-- R197: which pairs of steps commute. The three handlers commute pairwise, and TICK_MUX with every read and clear; the
pairs the rule calls distinguishable have the two outcomes it names; RESET overwrites whatever came before it, and what comes
after it shows: both orders of RESET with each event, with each Display Buffer write and with a read of the counter. (RESET
with an operation whose own effect is void after RESET, such as CLR_MS, leaves the reset block in either order.) -/
def Obligations.CommutingPairsOfSteps : Prop :=
  (∀ s : State,
    runTrace [.tickMux, .tickMs] s = runTrace [.tickMs, .tickMux] s ∧
    runTrace [.tickMux, .edge] s = runTrace [.edge, .tickMux] s ∧
    runTrace [.tickMs, .edge] s = runTrace [.edge, .tickMs] s) ∧
  (∀ (i : Instr) (s : State), i.agent = .host → writesBuffer i = false →
    runTrace [.tickMux, i] s = runTrace [i, .tickMux] s) ∧
  (∀ s t u : State, runTrace [.tickMs, .rdMs] s = .next t → runTrace [.rdMs, .tickMs] s = .next u →
    t.hRdata = some (s.block.ms + 1) ∧ u.hRdata = some s.block.ms) ∧
  (∀ (x : Byte) (s t u : State),
    runTrace [.tickMs, .clrMs x] s = .next t → runTrace [.clrMs x, .tickMs] s = .next u →
    t.block.ms = 0 ∧ u.block.ms = 1) ∧
  (∀ s t u : State, runTrace [.edge, .rdRdy] s = .next t → runTrace [.rdRdy, .edge] s = .next u →
    t.hRdata = some 1 ∧ u.hRdata = some (if s.block.ready then 1 else 0)) ∧
  (∀ (x : Byte) (s t u : State),
    runTrace [.edge, .clrRdy x] s = .next t → runTrace [.clrRdy x, .edge] s = .next u →
    t.block.ready = false ∧ u.block.ready = true) ∧
  (∃ s : State, runTrace [.tickMux, .wrInten 1 7] s ≠ runTrace [.wrInten 1 7, .tickMux] s) ∧
  (∃ s : State, runTrace [.tickMux, .wrDigit 1 17] s ≠ runTrace [.wrDigit 1 17, .tickMux] s) ∧
  (∃ s : State, runTrace [.tickMux, .wrDp 2] s ≠ runTrace [.wrDp 2, .tickMux] s) ∧
  (∀ (i : Instr) (s t : State), runTrace [i, .reset] s = .next t → t.block = Block.reset) ∧
  (∀ s t u : State, runTrace [.tickMs, .reset] s = .next t → runTrace [.reset, .tickMs] s = .next u →
    t.block.ms = 0 ∧ u.block.ms = 1) ∧
  (∀ s t u : State, runTrace [.edge, .reset] s = .next t → runTrace [.reset, .edge] s = .next u →
    t.block.ready = false ∧ u.block.ready = true) ∧
  (∀ s t u : State, runTrace [.tickMux, .reset] s = .next t → runTrace [.reset, .tickMux] s = .next u →
    t.block.duty = 0 ∧ u.block.duty = 1) ∧
  (∀ (k : DigitIx) (d : Byte) (s t u : State),
    runTrace [.wrDigit k d, .reset] s = .next t → runTrace [.reset, .wrDigit k d] s = .next u →
    t.block.digits[k] = 0 ∧ u.block.digits[k] = d) ∧
  (∀ (k : DigitIx) (d : Byte) (s t u : State),
    runTrace [.wrInten k d, .reset] s = .next t → runTrace [.reset, .wrInten k d] s = .next u →
    t.block.intens[k] = 0 ∧ u.block.intens[k] = d) ∧
  (∀ (d : Byte) (s t u : State), runTrace [.wrDp d, .reset] s = .next t → runTrace [.reset, .wrDp d] s = .next u →
    t.block.dpPos = 0 ∧ u.block.dpPos = d) ∧
  (∀ s t u : State, exec .rdMs s = .next t → runTrace [.reset, .rdMs] s = .next u →
    t.hRdata = some s.block.ms ∧ u.hRdata = some 0)

/-! ### Encoding -/

/-- R72 to R75: the decoder reads back every well-formed operation from its word, with every operand. -/
def Obligations.DecodeOfEncodeIsTheOperation : Prop :=
  ∀ i : Instr, i.wf = true → decode (encode i) = .ok i

/-- R72 to R75: a word that decodes is the encoding of the operation it decodes to, which is well formed: no two words
encode one operation. -/
def Obligations.EncodeOfDecodeIsTheWord : Prop :=
  ∀ (w : StimWord) (i : Instr), decode w = .ok i → encode i = w ∧ i.wf = true

/-- R76: the decoder rejects exactly the words of the rule's five clauses. -/
def Obligations.DecodeRejectsExactlyTheNonStimuli : Prop :=
  ∀ w : StimWord, (∃ why, decode w = .error why) ↔ NotAStimulusWord w

/-- R74: a word decodes to an operation of a row of the list iff its masked bits match that row, and the rows are pairwise
disjoint. -/
def Obligations.DecodeAgreesWithTheOpcodeTable : Prop :=
  (∀ (w : StimWord) (k : Fin 18), (∃ i, decode w = .ok i ∧ i.rowIndex = k) ↔ (opcodeTable[k]).covers w = true) ∧
  (∀ (w : StimWord) (j k : Fin 18), (opcodeTable[j]).covers w = true → (opcodeTable[k]).covers w = true → j = k) ∧
  (∀ i : Instr, i.row.agent = i.agent)

/-- Words written out from R74's patterns decode to the operations they stand for, one or more of each family; and words of
each clause of R76 are rejected (the examples V30 and V31 of the spec). -/
def Obligations.WrittenOutWordsDecode : Prop :=
  decode 0b0000001100000000#16 = .ok (.rdDigit 3) ∧
  decode 0b0000011100000000#16 = .ok (.rdInten 3) ∧
  decode 0b0000100100000000#16 = .ok .rdMs ∧
  decode 0b0000110000000000#16 = .ok (.rdRsvd 0xC) ∧
  decode 0b0100001100000111#16 = .ok (.wrDigit 3 7) ∧
  decode 0b0100011101100100#16 = .ok (.wrInten 3 100) ∧
  decode 0b0100100100000000#16 = .ok (.clrMs 0) ∧
  decode 0b0100101001011010#16 = .ok (.clrRdy 0x5A) ∧
  decode 0b0100111110101010#16 = .ok (.wrRsvd 0xF 0xAA) ∧
  decode 0b1000000100000000#16 = .ok .tickMux ∧
  decode 0xC000#16 = .error .reservedKind ∧
  decode 0x6000#16 = .error .zeroFieldSet ∧
  decode 0x09FF#16 = .error .readWithData ∧
  decode 0x8101#16 = .error .eventWithData ∧
  decode 0x8400#16 = .error .reservedEvent

/-- R90: the assembler reads an operation's own text back, data 0x00 for CLR_MS and CLR_RDY. -/
def Obligations.AssemblerReadsTheTextBack : Prop :=
  ∀ i : Instr, i.wf = true →
    assemble i.row.mnemonic (textOperands i) =
      some (match i with | .clrMs _ => .clrMs 0 | .clrRdy _ => .clrRdy 0 | j => j)

/-! ### The step -/

/-- R17: when the next stimulus word decodes to an operation i, the step is exec of i at the state with that word taken;
and a word placed by withFetchWord is that next word. -/
def Obligations.StepRunsTheDecodedOperation : Prop :=
  (∀ (s : State) (w : StimWord) (ws : List StimWord) (i : Instr),
    s.stimuli = w :: ws → decode w = .ok i → step s = exec i { s with stimuli := ws }) ∧
  (∀ (s : State) (w : Nat) (i : Instr), decodeTableWord 16 w = some i → step (s.withFetchWord 16 w) = exec i s)

/-- R192 (a derived rule): a step refuses only when the next word is no stimulus, and then names the decoder's reason. -/
def Obligations.StepRefusesOnlyNonStimuli : Prop :=
  ∀ (s : State) (r : Refusal), step s = .refused r ↔
    ∃ (w : StimWord) (ws : List StimWord) (why : NotStimulus),
      s.stimuli = w :: ws ∧ decode w = .error why ∧ r = .notAStimulus why

/-- The model's own choice (log entry 5): with no stimulus pending, a step leaves the state as it is. -/
def Obligations.StepWithoutStimulusIdles : Prop :=
  ∀ s : State, s.stimuli = [] → step s = .next s

/-- R17: running a pending trace step by step gives the fold of the operations over the state. -/
def Obligations.StepsOfATraceAreItsFold : Prop :=
  ∀ (is : List Instr) (ws : List StimWord) (s : State), (∀ i ∈ is, i.wf = true) →
    Sys2Proof.core.run is.length { s with stimuli := is.map encode ++ ws } =
      runTrace is { s with stimuli := ws }

/-! ### Invariants -/

/-- R28 (a derived rule), every step: between steps duty is in 0..100. -/
def Obligations.EveryStepKeepsDutyInRange : Prop :=
  ∀ s t : State, DutyInRange s → step s = .next t → DutyInRange t

/-- R105's steady state, every step: while no pending stimulus writes an intensity, a digit is asserted only in the
on-portion of its own slot, and at most one digit is asserted. -/
def Obligations.EveryStepKeepsTheDisplaySteady : Prop :=
  ∀ s t : State, SteadyDisplay s → step s = .next t → SteadyDisplay t ∧ AtMostOneLit s.block ∧ AtMostOneLit t.block

/-- R110 (a derived rule), every step: a digit of intensity 0 that is not asserted stays so while no pending stimulus writes
it a nonzero intensity, whatever else the stimuli do. -/
def Obligations.EveryStepKeepsABlankedDigitDark : Prop :=
  ∀ (k : DigitIx) (s t : State), BlankedDigit k s → step s = .next t → BlankedDigit k t

/-- The three invariants hold at reset. -/
def Obligations.ResetMeetsTheInvariants : Prop :=
  DutyInRange State.reset ∧ SteadyDisplay State.reset ∧ ∀ k : DigitIx, BlankedDigit k State.reset

/-! ### Slots, frames, duty cycle -/

/-- R108 (a derived rule): whatever the Display Buffer holds, a slot is 101 TICK_MUX steps and a frame 404. -/
def Obligations.SlotIs101TicksAndFrame404 : Prop :=
  ∀ s : State, s.block.duty = 0 →
    (∀ k : Nat, k ≤ 100 → ∃ t, runTrace (pseudoRep k .tickMux) s = .next t ∧
      t.block.cur = s.block.cur ∧ t.block.duty.toNat = k) ∧
    (∃ t, runTrace pseudoSlot s = .next t ∧ t.block.cur = s.block.cur + 1 ∧ t.block.duty = 0) ∧
    (∃ t, runTrace pseudoFrame s = .next t ∧ t.block.cur = s.block.cur ∧ t.block.duty = 0)

/-- R109 (a derived rule): from the advance into digit i on, under a constant nonzero intensity n, the digit is asserted for
exactly min(n, 100) of each 404 TICK_MUX steps: the first ones of its own slot, cycling indefinitely. -/
def Obligations.DutyCycleIsIntensityOver404 : Prop :=
  ∀ (s : State) (k : Nat), s.block.duty = 0 → s.block.dig[s.block.cur] = true →
    s.block.intens[s.block.cur] ≠ 0 →
    ∃ t, runTrace (pseudoRep k .tickMux) s = .next t ∧
      t.block.dig[s.block.cur] = decide (k % 404 < min s.block.intens[s.block.cur].toNat 100)

/-- R112 (a) (a derived rule), within a slot: once the count has passed min(intensity, 100), an asserted digit stays asserted
to the end of its slot. -/
def Obligations.MissedDeassertLastsToTheEndOfTheSlot : Prop :=
  ∀ (s : State) (k : Nat), s.block.dig[s.block.cur] = true →
    min s.block.intens[s.block.cur].toNat 100 ≤ s.block.duty.toNat → s.block.duty.toNat + k ≤ 100 →
    ∃ t, runTrace (pseudoRep k .tickMux) s = .next t ∧ t.block.cur = s.block.cur ∧
      t.block.dig[s.block.cur] = true

/-- R231 (a derived rule): under a nonzero intensity, a digit that is asserted, even one whose deassert was missed, is
deasserted within one frame. -/
def Obligations.LitDigitIsDeassertedWithinAFrame : Prop :=
  ∀ (s : State) (k : DigitIx), DutyInRange s → s.block.intens[k] ≠ 0 →
    ∃ (n : Nat) (t : State), 1 ≤ n ∧ n ≤ 404 ∧ runTrace (pseudoRep n .tickMux) s = .next t ∧ t.block.dig[k] = false

/-- R64, R230 (a derived bound): within one frame of TICK_MUX steps every digit with a valid glyph code is rendered afresh
from the Display Buffer. -/
def Obligations.EveryDigitIsRenderedWithinAFrame : Prop :=
  ∀ (s : State) (k : DigitIx) (g : Fin 17), DutyInRange s → g.val = s.block.digits[k].toNat →
    ∃ (n : Nat) (t : State), 1 ≤ n ∧ n ≤ 404 ∧ runTrace (pseudoRep n .tickMux) s = .next t ∧
      t.block.cur = k ∧ t.block.duty = 0 ∧ t.block.seg = segPattern (dpAt s.block.dpPos k) g

/-- R113 (a derived rule): a host write of a glyph code or of the decimal-point position changes no output and, before the
next advance, no output of the ticks that follow. -/
def Obligations.GlyphWriteIsUnseenBeforeTheAdvance : Prop :=
  ∀ (i : Instr) (s : State) (k : Nat),
    ((∃ (j : DigitIx) (d : Byte), i = .wrDigit j d) ∨ (∃ d : Byte, i = .wrDp d)) →
    s.block.duty.toNat + k ≤ 100 →
    ∃ t u, runTrace (i :: pseudoRep k .tickMux) s = .next t ∧ runTrace (pseudoRep k .tickMux) s = .next u ∧
      SameOutputs t.block u.block ∧ t.block.seg = s.block.seg

/-- R221 (a derived rule): after RESET and before any host write of an intensity, the display is dark after every trace. -/
def Obligations.DisplayIsDarkUntilAnIntensityIsWritten : Prop :=
  ∀ is : List Instr, (∀ i ∈ is, writesInten i = false) →
    ∃ t, runTrace is State.reset = .next t ∧ t.block.dig = #v[false, false, false, false]

/-! ### The counter and the flag over traces -/

/-- R123 (a derived rule): whatever steps are interleaved, ms counts the TICK_MS steps modulo 2^32 while no CLR_MS and no
RESET is among them, and no other operation changes it. -/
def Obligations.MsCountsTheTicksOfAnyTrace : Prop :=
  (∀ (is : List Instr) (s : State), (∀ i ∈ is, i = .tickMs ∨ writesMs i = false) →
    ∃ t, runTrace is s = .next t ∧
      t.block.ms.toNat = (s.block.ms.toNat + is.count .tickMs) % 2 ^ 32) ∧
  (∀ (i : Instr) (s t : State), writesMs i = false → exec i s = .next t → t.block.ms = s.block.ms)

/-- R133 (a derived rule): ready is 1 iff an EDGE has occurred since the latest RESET or CLR_RDY. -/
def Obligations.ReadyIffAnEdgeSinceTheClear : Prop :=
  ∀ (is : List Instr) (s : State), s.block.ready = false →
    ∃ t, runTrace is s = .next t ∧
      (t.block.ready = true ↔
        ∃ before after : List Instr, is = before ++ .edge :: after ∧ ∀ j ∈ after, clearsReady j = false)

/-- R233 (a derived rule), hazard H4: ticks between RD_MS and CLR_MS are counted in neither sample: the first read answers
the count before them, and the next read after the clear answers only the ticks that follow the clear. -/
def Obligations.TicksBetweenReadAndClearAreLost : Prop :=
  ∀ (lost later : Nat) (x : Byte) (s : State),
    ∃ t u v, exec .rdMs s = .next t ∧ t.hRdata = some s.block.ms ∧
      runTrace (pseudoMs lost ++ .clrMs x :: pseudoMs later) t = .next u ∧
      exec .rdMs u = .next v ∧ v.hRdata = some (BitVec.ofNat 32 later)

/-! ### Host software (outside the block) -/

/-- R163, R164, R166: the value the Power Formatter emits never exceeds 9995, its point is in 0..3 and it shows leading
zeros. -/
def Obligations.PowerFormatterFitsFourDigits : Prop :=
  ∀ period : Word32,
    power period ≤ 3600000 ∧ (powerFormat period).value ≤ 9995 ∧ 0 ≤ (powerFormat period).dp ∧
      (powerFormat period).dp ≤ 3 ∧ (powerFormat period).showZeros = true ∧
      (999500 ≤ power period → 1000 ≤ (powerFormat period).value ∧ (powerFormat period).value ≤ 3600) ∧
      (9995 ≤ power period → power period < 999500 →
        1000 ≤ (powerFormat period).value ∧ 1 < (powerFormat period).dp)

/-- R168: the four digits of a value up to 9999 are decimal digits, most significant first, and give the value back. -/
def Obligations.DecimalDigitsRoundTrip : Prop :=
  ∀ value : Nat, value ≤ 9999 →
    (decimalDigits value)[0] * 1000 + (decimalDigits value)[1] * 100 + (decimalDigits value)[2] * 10 +
        (decimalDigits value)[3] = value ∧
      ∀ i : DigitIx, (decimalDigits value)[i] ≤ 9

/-- R168 to R173, through the block: the Digit Formatter's accesses leave the four decimal digits of a value up to 9999,
most significant first, or the overflow glyph in all four positions; the brightness in each intensity, but 0 in position
0, 1, 2 when leading zeros are not shown, the value is below 1000, 100, 10 and the point is not at that position; the
decimal point only if the call names 1 to 4 (else the old one stays); and every other state element as it was. The Display
Buffer's digits and intensities are then in the documented ranges of R24. -/
def Obligations.DigitFormatterLeavesTheReading : Prop :=
  ∀ (r : Reading) (s : State), ∃ t, runTrace (digitFormat r) s = .next t ∧
    t.block =
      { s.block with
        digits :=
          if r.value ≤ 9999 then
            #v[BitVec.ofNat 8 (r.value / 1000 % 10), BitVec.ofNat 8 (r.value / 100 % 10),
              BitVec.ofNat 8 (r.value / 10 % 10), BitVec.ofNat 8 (r.value % 10)]
          else
            #v[BitVec.ofNat 8 Config.overflowGlyph.val, BitVec.ofNat 8 Config.overflowGlyph.val,
              BitVec.ofNat 8 Config.overflowGlyph.val, BitVec.ofNat 8 Config.overflowGlyph.val]
        intens :=
          #v[if r.showZeros = false ∧ r.value < 1000 ∧ r.dp ≠ 1 then 0 else BitVec.ofNat 8 Config.brightness.val,
            if r.showZeros = false ∧ r.value < 100 ∧ r.dp ≠ 2 then 0 else BitVec.ofNat 8 Config.brightness.val,
            if r.showZeros = false ∧ r.value < 10 ∧ r.dp ≠ 3 then 0 else BitVec.ofNat 8 Config.brightness.val,
            BitVec.ofNat 8 Config.brightness.val]
        dpPos := if 1 ≤ r.dp ∧ r.dp ≤ 4 then BitVec.ofInt 8 r.dp else s.block.dpPos } ∧
    BufferLegal t.block

/-- R223, R174: from reset, the start-up call leaves digits 0,0,0,0, intensities B,0,0,B and the point at position 1. -/
def Obligations.BootLeavesTheRestingDisplay : Prop :=
  ∃ t, runTrace bootAccesses State.reset = .next t ∧
    t.block =
      { Block.reset with
        digits := #v[0, 0, 0, 0]
        intens := #v[BitVec.ofNat 8 Config.brightness.val, 0, 0, BitVec.ofNat 8 Config.brightness.val]
        dpPos := 1 }

/-- R161: a main loop that polls while ready is 1 reads the counter, then clears the counter with the flag still set, then
clears the flag, and goes on to format that sample; the order of the two clears is decision D19 of the spec. -/
def Obligations.MainLoopTakesTheSample : Prop :=
  ∀ s : State, s.block.ready = true →
    ∃ d1 d2 d3 d4 : Device,
      (Device.mk s .poll).hostTurn = .next d1 ∧ d1.state.block = s.block ∧ d1.state.hRdata = some 1 ∧
      d1.hostTurn = .next d2 ∧ d2.state.block = s.block ∧ d2.state.hRdata = some s.block.ms ∧
      d2.hostTurn = .next d3 ∧ d3.state.block = { s.block with ms := 0 } ∧ d3.state.block.ready = true ∧
      d3.hostTurn = .next d4 ∧ d4.state.block = { s.block with ms := 0, ready := false } ∧
      d4.host = .format (digitFormat (powerFormat s.block.ms))

/-- R160, on the whole device: the host never blocks, and from its start-up on it issues host accesses only, whatever the
events; and an event that is no reset leaves the host where it stands, writes no register of the Display Buffer and clears
neither the counter nor the flag: the host is the single writer and the single consumer. (Where the host stands after a
reset is open: log entry 13.) -/
def Obligations.HostIsTheOnlyWriterAndConsumer : Prop :=
  Device.boot.host.issuesOnlyAccesses = true ∧
  (∀ d : Device, d.host.issuesOnlyAccesses = true →
    d.host.access.agent = .host ∧ ∃ e, d.hostTurn = .next e ∧ e.host.issuesOnlyAccesses = true) ∧
  (∀ (event : DeviceEvent) (d : Device), d.host.issuesOnlyAccesses = true →
    ∃ e, d.eventTurn event = .next e ∧ e.host.issuesOnlyAccesses = true) ∧
  (∀ (event : DeviceEvent) (d e : Device), event.op ≠ .reset → d.eventTurn event = .next e →
    e.host = d.host ∧ SameBuffer e.state.block d.state.block ∧
      (e.state.block.ms = d.state.block.ms ∨ e.state.block.ms = d.state.block.ms + 1) ∧
      (d.state.block.ready = true → e.state.block.ready = true))
end

