-- ==== Sys2Proof/Laws/Decode.lean ====
section
/-! SUPPORT. The fields of the encoded words, and what each part of the decoder gives back (spec/30_encoding.md R72 to R75):
the bricks of the encoding statements. -/

namespace Sys2Proof

theorem encodeRead_fields (a : HAddr) :
    fieldKind (encodeRead a) = 0b00#2 ∧ fieldZero (encodeRead a) = 0b00#2 ∧ fieldSel (encodeRead a) = a ∧
      fieldData (encodeRead a) = 0x00#8 := by
  revert a; decide

theorem encodeEvent_fields (n : BitVec 4) :
    fieldKind (encodeEvent n) = 0b10#2 ∧ fieldZero (encodeEvent n) = 0b00#2 ∧ fieldSel (encodeEvent n) = n ∧
      fieldData (encodeEvent n) = 0x00#8 := by
  revert n; decide

theorem encodeWrite_fields (a : HAddr) (d : Byte) :
    fieldKind (encodeWrite a d) = 0b01#2 ∧ fieldZero (encodeWrite a d) = 0b00#2 ∧ fieldSel (encodeWrite a d) = a ∧
      fieldData (encodeWrite a d) = d := by
  refine ⟨?_, ?_, ?_, ?_⟩ <;>
    · ext k hk
      simp only [fieldKind, fieldZero, fieldSel, fieldData, encodeWrite, BitVec.getElem_extractLsb',
        BitVec.getLsbD_append]
      interval_cases k <;> simp

/-- A word is its four fields put together (R72). -/
theorem fields_append (w : StimWord) :
    (fieldKind w ++ fieldZero w ++ fieldSel w ++ fieldData w : BitVec 16) = w := by
  ext k hk
  simp only [fieldKind, fieldZero, fieldSel, fieldData, BitVec.getElem_append, BitVec.getElem_extractLsb']
  interval_cases k <;> simp

end Sys2Proof
end

