-- ==== Sys2Proof/Laws/State.lean ====
section
/-! SUPPORT. One lemma per field per update of the state, true by rfl, so that no proof unfolds a record update. -/

namespace Sys2Proof.Machine

/-! ### Block.setDigit -/

@[simp] theorem Block.setDigit_digits (b : Block) (i : DigitIx) (d : Byte) : (b.setDigit i d).digits = b.digits.set i d := rfl
@[simp] theorem Block.setDigit_intens (b : Block) (i : DigitIx) (d : Byte) : (b.setDigit i d).intens = b.intens := rfl
@[simp] theorem Block.setDigit_dpPos (b : Block) (i : DigitIx) (d : Byte) : (b.setDigit i d).dpPos = b.dpPos := rfl
@[simp] theorem Block.setDigit_cur (b : Block) (i : DigitIx) (d : Byte) : (b.setDigit i d).cur = b.cur := rfl
@[simp] theorem Block.setDigit_duty (b : Block) (i : DigitIx) (d : Byte) : (b.setDigit i d).duty = b.duty := rfl
@[simp] theorem Block.setDigit_seg (b : Block) (i : DigitIx) (d : Byte) : (b.setDigit i d).seg = b.seg := rfl
@[simp] theorem Block.setDigit_dig (b : Block) (i : DigitIx) (d : Byte) : (b.setDigit i d).dig = b.dig := rfl
@[simp] theorem Block.setDigit_ms (b : Block) (i : DigitIx) (d : Byte) : (b.setDigit i d).ms = b.ms := rfl
@[simp] theorem Block.setDigit_ready (b : Block) (i : DigitIx) (d : Byte) : (b.setDigit i d).ready = b.ready := rfl

/-! ### Block.setInten -/

@[simp] theorem Block.setInten_digits (b : Block) (i : DigitIx) (d : Byte) : (b.setInten i d).digits = b.digits := rfl
@[simp] theorem Block.setInten_intens (b : Block) (i : DigitIx) (d : Byte) : (b.setInten i d).intens = b.intens.set i d := rfl
@[simp] theorem Block.setInten_dpPos (b : Block) (i : DigitIx) (d : Byte) : (b.setInten i d).dpPos = b.dpPos := rfl
@[simp] theorem Block.setInten_cur (b : Block) (i : DigitIx) (d : Byte) : (b.setInten i d).cur = b.cur := rfl
@[simp] theorem Block.setInten_duty (b : Block) (i : DigitIx) (d : Byte) : (b.setInten i d).duty = b.duty := rfl
@[simp] theorem Block.setInten_seg (b : Block) (i : DigitIx) (d : Byte) : (b.setInten i d).seg = b.seg := rfl
@[simp] theorem Block.setInten_dig (b : Block) (i : DigitIx) (d : Byte) : (b.setInten i d).dig = b.dig := rfl
@[simp] theorem Block.setInten_ms (b : Block) (i : DigitIx) (d : Byte) : (b.setInten i d).ms = b.ms := rfl
@[simp] theorem Block.setInten_ready (b : Block) (i : DigitIx) (d : Byte) : (b.setInten i d).ready = b.ready := rfl

/-! ### Block.setDpPos -/

@[simp] theorem Block.setDpPos_digits (b : Block) (d : Byte) : (b.setDpPos d).digits = b.digits := rfl
@[simp] theorem Block.setDpPos_intens (b : Block) (d : Byte) : (b.setDpPos d).intens = b.intens := rfl
@[simp] theorem Block.setDpPos_dpPos (b : Block) (d : Byte) : (b.setDpPos d).dpPos = d := rfl
@[simp] theorem Block.setDpPos_cur (b : Block) (d : Byte) : (b.setDpPos d).cur = b.cur := rfl
@[simp] theorem Block.setDpPos_duty (b : Block) (d : Byte) : (b.setDpPos d).duty = b.duty := rfl
@[simp] theorem Block.setDpPos_seg (b : Block) (d : Byte) : (b.setDpPos d).seg = b.seg := rfl
@[simp] theorem Block.setDpPos_dig (b : Block) (d : Byte) : (b.setDpPos d).dig = b.dig := rfl
@[simp] theorem Block.setDpPos_ms (b : Block) (d : Byte) : (b.setDpPos d).ms = b.ms := rfl
@[simp] theorem Block.setDpPos_ready (b : Block) (d : Byte) : (b.setDpPos d).ready = b.ready := rfl

/-! ### Block.setMs -/

@[simp] theorem Block.setMs_digits (b : Block) (v : Word32) : (b.setMs v).digits = b.digits := rfl
@[simp] theorem Block.setMs_intens (b : Block) (v : Word32) : (b.setMs v).intens = b.intens := rfl
@[simp] theorem Block.setMs_dpPos (b : Block) (v : Word32) : (b.setMs v).dpPos = b.dpPos := rfl
@[simp] theorem Block.setMs_cur (b : Block) (v : Word32) : (b.setMs v).cur = b.cur := rfl
@[simp] theorem Block.setMs_duty (b : Block) (v : Word32) : (b.setMs v).duty = b.duty := rfl
@[simp] theorem Block.setMs_seg (b : Block) (v : Word32) : (b.setMs v).seg = b.seg := rfl
@[simp] theorem Block.setMs_dig (b : Block) (v : Word32) : (b.setMs v).dig = b.dig := rfl
@[simp] theorem Block.setMs_ms (b : Block) (v : Word32) : (b.setMs v).ms = v := rfl
@[simp] theorem Block.setMs_ready (b : Block) (v : Word32) : (b.setMs v).ready = b.ready := rfl

/-! ### Block.setDuty -/

@[simp] theorem Block.setDuty_digits (b : Block) (d1 : Nat) : (b.setDuty d1).digits = b.digits := rfl
@[simp] theorem Block.setDuty_intens (b : Block) (d1 : Nat) : (b.setDuty d1).intens = b.intens := rfl
@[simp] theorem Block.setDuty_dpPos (b : Block) (d1 : Nat) : (b.setDuty d1).dpPos = b.dpPos := rfl
@[simp] theorem Block.setDuty_cur (b : Block) (d1 : Nat) : (b.setDuty d1).cur = b.cur := rfl
@[simp] theorem Block.setDuty_duty (b : Block) (d1 : Nat) : (b.setDuty d1).duty = BitVec.ofNat 7 d1 := rfl
@[simp] theorem Block.setDuty_seg (b : Block) (d1 : Nat) : (b.setDuty d1).seg = b.seg := rfl
@[simp] theorem Block.setDuty_dig (b : Block) (d1 : Nat) : (b.setDuty d1).dig = b.dig := rfl
@[simp] theorem Block.setDuty_ms (b : Block) (d1 : Nat) : (b.setDuty d1).ms = b.ms := rfl
@[simp] theorem Block.setDuty_ready (b : Block) (d1 : Nat) : (b.setDuty d1).ready = b.ready := rfl

/-! ### Block.startSlot -/

@[simp] theorem Block.startSlot_digits (b : Block) (c : DigitIx) : (b.startSlot c).digits = b.digits := rfl
@[simp] theorem Block.startSlot_intens (b : Block) (c : DigitIx) : (b.startSlot c).intens = b.intens := rfl
@[simp] theorem Block.startSlot_dpPos (b : Block) (c : DigitIx) : (b.startSlot c).dpPos = b.dpPos := rfl
@[simp] theorem Block.startSlot_cur (b : Block) (c : DigitIx) : (b.startSlot c).cur = c := rfl
@[simp] theorem Block.startSlot_duty (b : Block) (c : DigitIx) : (b.startSlot c).duty = 0 := rfl
@[simp] theorem Block.startSlot_seg (b : Block) (c : DigitIx) : (b.startSlot c).seg = b.seg := rfl
@[simp] theorem Block.startSlot_dig (b : Block) (c : DigitIx) : (b.startSlot c).dig = b.dig := rfl
@[simp] theorem Block.startSlot_ms (b : Block) (c : DigitIx) : (b.startSlot c).ms = b.ms := rfl
@[simp] theorem Block.startSlot_ready (b : Block) (c : DigitIx) : (b.startSlot c).ready = b.ready := rfl

/-! ### Block.setSeg -/

@[simp] theorem Block.setSeg_digits (b : Block) (v : Byte) : (b.setSeg v).digits = b.digits := rfl
@[simp] theorem Block.setSeg_intens (b : Block) (v : Byte) : (b.setSeg v).intens = b.intens := rfl
@[simp] theorem Block.setSeg_dpPos (b : Block) (v : Byte) : (b.setSeg v).dpPos = b.dpPos := rfl
@[simp] theorem Block.setSeg_cur (b : Block) (v : Byte) : (b.setSeg v).cur = b.cur := rfl
@[simp] theorem Block.setSeg_duty (b : Block) (v : Byte) : (b.setSeg v).duty = b.duty := rfl
@[simp] theorem Block.setSeg_seg (b : Block) (v : Byte) : (b.setSeg v).seg = v := rfl
@[simp] theorem Block.setSeg_dig (b : Block) (v : Byte) : (b.setSeg v).dig = b.dig := rfl
@[simp] theorem Block.setSeg_ms (b : Block) (v : Byte) : (b.setSeg v).ms = b.ms := rfl
@[simp] theorem Block.setSeg_ready (b : Block) (v : Byte) : (b.setSeg v).ready = b.ready := rfl

/-! ### Block.setDig -/

@[simp] theorem Block.setDig_digits (b : Block) (i : DigitIx) (v : Bool) : (b.setDig i v).digits = b.digits := rfl
@[simp] theorem Block.setDig_intens (b : Block) (i : DigitIx) (v : Bool) : (b.setDig i v).intens = b.intens := rfl
@[simp] theorem Block.setDig_dpPos (b : Block) (i : DigitIx) (v : Bool) : (b.setDig i v).dpPos = b.dpPos := rfl
@[simp] theorem Block.setDig_cur (b : Block) (i : DigitIx) (v : Bool) : (b.setDig i v).cur = b.cur := rfl
@[simp] theorem Block.setDig_duty (b : Block) (i : DigitIx) (v : Bool) : (b.setDig i v).duty = b.duty := rfl
@[simp] theorem Block.setDig_seg (b : Block) (i : DigitIx) (v : Bool) : (b.setDig i v).seg = b.seg := rfl
@[simp] theorem Block.setDig_dig (b : Block) (i : DigitIx) (v : Bool) : (b.setDig i v).dig = b.dig.set i v := rfl
@[simp] theorem Block.setDig_ms (b : Block) (i : DigitIx) (v : Bool) : (b.setDig i v).ms = b.ms := rfl
@[simp] theorem Block.setDig_ready (b : Block) (i : DigitIx) (v : Bool) : (b.setDig i v).ready = b.ready := rfl

/-! ### Block.setReady -/

@[simp] theorem Block.setReady_digits (b : Block) : b.setReady.digits = b.digits := rfl
@[simp] theorem Block.setReady_intens (b : Block) : b.setReady.intens = b.intens := rfl
@[simp] theorem Block.setReady_dpPos (b : Block) : b.setReady.dpPos = b.dpPos := rfl
@[simp] theorem Block.setReady_cur (b : Block) : b.setReady.cur = b.cur := rfl
@[simp] theorem Block.setReady_duty (b : Block) : b.setReady.duty = b.duty := rfl
@[simp] theorem Block.setReady_seg (b : Block) : b.setReady.seg = b.seg := rfl
@[simp] theorem Block.setReady_dig (b : Block) : b.setReady.dig = b.dig := rfl
@[simp] theorem Block.setReady_ms (b : Block) : b.setReady.ms = b.ms := rfl
@[simp] theorem Block.setReady_ready (b : Block) : b.setReady.ready = true := rfl

/-! ### Block.clearReady -/

@[simp] theorem Block.clearReady_digits (b : Block) : b.clearReady.digits = b.digits := rfl
@[simp] theorem Block.clearReady_intens (b : Block) : b.clearReady.intens = b.intens := rfl
@[simp] theorem Block.clearReady_dpPos (b : Block) : b.clearReady.dpPos = b.dpPos := rfl
@[simp] theorem Block.clearReady_cur (b : Block) : b.clearReady.cur = b.cur := rfl
@[simp] theorem Block.clearReady_duty (b : Block) : b.clearReady.duty = b.duty := rfl
@[simp] theorem Block.clearReady_seg (b : Block) : b.clearReady.seg = b.seg := rfl
@[simp] theorem Block.clearReady_dig (b : Block) : b.clearReady.dig = b.dig := rfl
@[simp] theorem Block.clearReady_ms (b : Block) : b.clearReady.ms = b.ms := rfl
@[simp] theorem Block.clearReady_ready (b : Block) : b.clearReady.ready = false := rfl

/-! ### State.withBlock and State.answer -/

@[simp] theorem State.withBlock_block (s : State) (b : Block) : (s.withBlock b).block = b := rfl
@[simp] theorem State.withBlock_hRdata (s : State) (b : Block) : (s.withBlock b).hRdata = s.hRdata := rfl
@[simp] theorem State.withBlock_stimuli (s : State) (b : Block) : (s.withBlock b).stimuli = s.stimuli := rfl
@[simp] theorem State.answer_block (s : State) (r : Option Word32) : (s.answer r).block = s.block := rfl
@[simp] theorem State.answer_hRdata (s : State) (r : Option Word32) : (s.answer r).hRdata = r := rfl
@[simp] theorem State.answer_stimuli (s : State) (r : Option Word32) : (s.answer r).stimuli = s.stimuli := rfl

/-! ### The reset block -/

@[simp] theorem Block.reset_digits : Block.reset.digits = #v[0, 0, 0, 0] := rfl
@[simp] theorem Block.reset_intens : Block.reset.intens = #v[0, 0, 0, 0] := rfl
@[simp] theorem Block.reset_dpPos : Block.reset.dpPos = 0 := rfl
@[simp] theorem Block.reset_cur : Block.reset.cur = 0 := rfl
@[simp] theorem Block.reset_duty : Block.reset.duty = 0 := rfl
@[simp] theorem Block.reset_seg : Block.reset.seg = 0 := rfl
@[simp] theorem Block.reset_dig : Block.reset.dig = #v[false, false, false, false] := rfl
@[simp] theorem Block.reset_ms : Block.reset.ms = 0 := rfl
@[simp] theorem Block.reset_ready : Block.reset.ready = false := rfl

end Sys2Proof.Machine
end

