-- ==== Sys2Proof/Laws/Ops.lean ====
section
/-! SUPPORT. One specification lemma per shared operation: what the host's accesses, RENDER and the multiplexer's tick can
do, for later proofs to cite instead of unfolding the operation. -/

namespace Sys2Proof.Machine

/-! ### Addresses -/

@[simp] theorem regIndex_digitAddr (i : DigitIx) : regIndex (digitAddr i) = i := by
  revert i; decide

@[simp] theorem regIndex_intenAddr (i : DigitIx) : regIndex (intenAddr i) = i := by
  revert i; decide

theorem digitAddr_lt (i : DigitIx) : digitAddr i < 0x4#4 := by
  revert i; decide

theorem intenAddr_range (i : DigitIx) : ¬ intenAddr i < 0x4#4 ∧ intenAddr i < 0x8#4 := by
  revert i; decide

/-! ### HostRead and HostWrite -/

@[simp] theorem hostRead_digitAddr (b : Block) (i : DigitIx) : hostRead b (digitAddr i) = zext32 b.digits[i] := by
  simp [hostRead, digitAddr_lt]

@[simp] theorem hostRead_intenAddr (b : Block) (i : DigitIx) : hostRead b (intenAddr i) = zext32 b.intens[i] := by
  simp [hostRead, intenAddr_range]

@[simp] theorem hostRead_dpAddr (b : Block) : hostRead b dpAddr = zext32 b.dpPos := rfl

@[simp] theorem hostRead_msAddr (b : Block) : hostRead b msAddr = b.ms := rfl

@[simp] theorem hostRead_readyAddr (b : Block) : hostRead b readyAddr = b.readReady := rfl

/-- A reserved address is none of the map's registers (R51, R58). -/
theorem rsvd_addr_cases {a : HAddr} (h : 0xB ≤ a.toNat) :
    ¬ a < 0x4#4 ∧ ¬ a < 0x8#4 ∧ a ≠ 0x8#4 ∧ a ≠ 0x9#4 ∧ a ≠ 0xA#4 := by
  revert a; decide

theorem hostRead_rsvd (b : Block) {a : HAddr} (h : 0xB ≤ a.toNat) : hostRead b a = 0 := by
  obtain ⟨h1, h2, h3, h4, h5⟩ := rsvd_addr_cases h
  simp [hostRead, h1, h2, h3, h4, h5]

@[simp] theorem hostWrite_digitAddr (b : Block) (i : DigitIx) (v : Byte) :
    hostWrite b (digitAddr i) v = b.setDigit i v := by
  simp [hostWrite, digitAddr_lt]

@[simp] theorem hostWrite_intenAddr (b : Block) (i : DigitIx) (v : Byte) :
    hostWrite b (intenAddr i) v = b.setInten i v := by
  simp [hostWrite, intenAddr_range]

@[simp] theorem hostWrite_dpAddr (b : Block) (v : Byte) : hostWrite b dpAddr v = b.setDpPos v := rfl

@[simp] theorem hostWrite_msAddr (b : Block) (v : Byte) : hostWrite b msAddr v = b.setMs 0 := rfl

@[simp] theorem hostWrite_readyAddr (b : Block) (v : Byte) : hostWrite b readyAddr v = b.clearReady := rfl

theorem hostWrite_rsvd (b : Block) {a : HAddr} (v : Byte) (h : 0xB ≤ a.toNat) : hostWrite b a v = b := by
  obtain ⟨h1, h2, h3, h4, h5⟩ := rsvd_addr_cases h
  simp [hostWrite, h1, h2, h3, h4, h5]

@[simp] theorem hostReadStep_block (a : HAddr) (s : State) : (hostReadStep a s).block = s.block := rfl
@[simp] theorem hostReadStep_hRdata (a : HAddr) (s : State) :
    (hostReadStep a s).hRdata = some (hostRead s.block a) := rfl
@[simp] theorem hostReadStep_stimuli (a : HAddr) (s : State) : (hostReadStep a s).stimuli = s.stimuli := rfl
@[simp] theorem hostWriteStep_block (a : HAddr) (v : Byte) (s : State) :
    (hostWriteStep a v s).block = hostWrite s.block a v := rfl
@[simp] theorem hostWriteStep_hRdata (a : HAddr) (v : Byte) (s : State) : (hostWriteStep a v s).hRdata = none := rfl
@[simp] theorem hostWriteStep_stimuli (a : HAddr) (v : Byte) (s : State) :
    (hostWriteStep a v s).stimuli = s.stimuli := rfl
@[simp] theorem rsvdReadStep_block (s : State) : (rsvdReadStep s).block = s.block := rfl
@[simp] theorem rsvdReadStep_hRdata (s : State) : (rsvdReadStep s).hRdata = some 0 := rfl
@[simp] theorem rsvdReadStep_stimuli (s : State) : (rsvdReadStep s).stimuli = s.stimuli := rfl
@[simp] theorem rsvdWriteStep_block (s : State) : (rsvdWriteStep s).block = s.block := rfl
@[simp] theorem rsvdWriteStep_hRdata (s : State) : (rsvdWriteStep s).hRdata = none := rfl
@[simp] theorem rsvdWriteStep_stimuli (s : State) : (rsvdWriteStep s).stimuli = s.stimuli := rfl

/-! ### RENDER and the multiplexer's tick -/

theorem clampIntens_le (v : Byte) : clampIntens v ≤ 100 := Nat.min_le_right _ _

theorem clampIntens_pos {v : Byte} (h : v ≠ 0) : 0 < clampIntens v := by
  have : v.toNat ≠ 0 := fun h0 => h (BitVec.eq_of_toNat_eq (by simpa using h0))
  simp only [clampIntens, Config.dutyMax]
  omega

/-- The segment outputs are the pattern of an in-range code, and unchanged for another (R101). -/
theorem renderedSeg_cases (code : Byte) (dpflag : Bool) (old : Byte) :
    (∃ g : Fin 17, g.val = code.toNat ∧ renderedSeg code dpflag old = segPattern dpflag g) ∨
      (16 < code.toNat ∧ renderedSeg code dpflag old = old) := by
  by_cases h : code.toNat < 17
  · exact .inl ⟨⟨code.toNat, h⟩, rfl, by simp [renderedSeg, glyphCode, h]⟩
  · exact .inr ⟨by omega, by simp [renderedSeg, glyphCode, h]⟩

theorem renderedSeg_of_lt {code : Byte} (dpflag : Bool) (old : Byte) (h : code.toNat < 17) :
    renderedSeg code dpflag old = segPattern dpflag ⟨code.toNat, h⟩ := by
  simp [renderedSeg, glyphCode, h]

theorem renderedSeg_of_ge {code : Byte} (dpflag : Bool) (old : Byte) (h : ¬ code.toNat < 17) :
    renderedSeg code dpflag old = old := by
  simp [renderedSeg, glyphCode, h]

/-- What an advance into digit `c` leaves (R103): the cursor at the start of `c`'s slot, `seg` rendered, and line `c`
asserted iff its intensity is nonzero; everything else, the outgoing line included, as it was. -/
theorem advance_eq (c : DigitIx) (b : Block) :
    advance c b =
      { b with
        cur := c
        duty := 0
        seg := renderedSeg b.digits[c] (dpAt b.dpPos c) b.seg
        dig := if b.intens[c] ≠ 0 then b.dig.set c true else b.dig } := by
  by_cases hz : b.intens[c] = 0
  · have hz' : (render b.digits[c] (dpAt b.dpPos c) (b.startSlot c)).intens[c] = 0 := hz
    simp only [advance, assertIfLit, hz, hz', ne_eq, not_true_eq_false, if_false]
    rfl
  · have hz' : ¬ (render b.digits[c] (dpAt b.dpPos c) (b.startSlot c)).intens[c] = 0 := hz
    simp only [advance, assertIfLit, hz, hz', ne_eq, not_false_eq_true, if_true]
    rfl

/-- Everything TICK_MUX can do to the block: exactly one of the three branches of R103, with its condition. -/
theorem muxTick_cases (b : Block) :
    (b.duty.toNat + 1 = clampIntens b.intens[b.cur] ∧
      muxTick b = (b.setDuty (b.duty.toNat + 1)).setDig b.cur false) ∨
    (b.duty.toNat + 1 ≠ clampIntens b.intens[b.cur] ∧ 100 < b.duty.toNat + 1 ∧
      muxTick b = advance (b.cur + 1) b) ∨
    (b.duty.toNat + 1 ≠ clampIntens b.intens[b.cur] ∧ b.duty.toNat + 1 ≤ 100 ∧
      muxTick b = b.setDuty (b.duty.toNat + 1)) := by
  by_cases hA : b.duty.toNat + 1 = clampIntens b.intens[b.cur]
  · exact .inl ⟨hA, if_pos hA⟩
  · by_cases hB : 100 < b.duty.toNat + 1
    · exact .inr (.inl ⟨hA, hB, (if_neg hA).trans (if_pos hB)⟩)
    · exact .inr (.inr ⟨hA, by omega, (if_neg hA).trans (if_neg hB)⟩)

/-- TICK_MUX never writes the Display Buffer, `ms` or `ready` (R103). -/
theorem muxTick_frame (b : Block) :
    (muxTick b).digits = b.digits ∧ (muxTick b).intens = b.intens ∧ (muxTick b).dpPos = b.dpPos ∧
      (muxTick b).ms = b.ms ∧ (muxTick b).ready = b.ready := by
  rcases muxTick_cases b with ⟨-, h⟩ | ⟨-, -, h⟩ | ⟨-, -, h⟩ <;> simp [h, advance_eq]

/-- In 7 bits a stored duty count up to 100 is itself (R28). -/
theorem setDuty_toNat (b : Block) {d1 : Nat} (h : d1 ≤ 100) : (b.setDuty d1).duty.toNat = d1 := by
  simp only [Block.setDuty_duty, BitVec.toNat_ofNat]
  omega

end Sys2Proof.Machine
end

