-- ==== Sys2Proof/Laws/PerInstr.lean ====
section
/-! SUPPORT. Statements made instruction by instruction, one lemma per constructor: every well-formed operation's word
matches the mask and pattern of its own row (spec/30_encoding.md R74). -/

namespace Sys2Proof

/-- A mask of a WR row ignores the data bits, so only the address decides (R74). -/
theorem encodeWrite_masked (a : HAddr) (d : Byte) :
    encodeWrite a d &&& 0xFC00 = encodeWrite a 0 &&& 0xFC00 ∧
      encodeWrite a d &&& 0xFF00 = encodeWrite a 0 &&& 0xFF00 := by
  constructor <;>
    · refine BitVec.eq_of_getLsbD_eq fun k hk => ?_
      simp only [encodeWrite, BitVec.getLsbD_and, BitVec.getLsbD_append]
      interval_cases k <;> simp

end Sys2Proof

namespace Sys2Proof.Laws.EncodesItsRow

/-- The word of a well-formed operation is of the operation's row of the table. -/
def Statement (i : Instr) : Prop := i.wf = true → i.row.covers (encode i) = true

theorem rdDigit (i : DigitIx) : Statement (.rdDigit i) := by revert i; unfold Statement; decide
theorem rdInten (i : DigitIx) : Statement (.rdInten i) := by revert i; unfold Statement; decide
theorem rdDp : Statement .rdDp := by unfold Statement; decide
theorem rdMs : Statement .rdMs := by unfold Statement; decide
theorem rdRdy : Statement .rdRdy := by unfold Statement; decide
theorem rdRsvdB : Statement .rdRsvdB := by unfold Statement; decide
theorem rdRsvd (a : HAddr) : Statement (.rdRsvd a) := by revert a; unfold Statement; decide

theorem wrDigit (i : DigitIx) (d : Byte) : Statement (.wrDigit i d) := by
  intro h
  clear h
  show (encodeWrite (digitAddr i) d &&& 0xFC00 == (0x4000 : StimWord)) = true
  rw [(encodeWrite_masked _ d).1]
  revert i; decide

theorem wrInten (i : DigitIx) (d : Byte) : Statement (.wrInten i d) := by
  intro h
  clear h
  show (encodeWrite (intenAddr i) d &&& 0xFC00 == (0x4400 : StimWord)) = true
  rw [(encodeWrite_masked _ d).1]
  revert i; decide

theorem wrDp (d : Byte) : Statement (.wrDp d) := by
  intro _
  show (encodeWrite dpAddr d &&& 0xFF00 == (0x4800 : StimWord)) = true
  rw [(encodeWrite_masked _ d).2]
  decide

theorem clrMs (x : Byte) : Statement (.clrMs x) := by
  intro _
  show (encodeWrite msAddr x &&& 0xFF00 == (0x4900 : StimWord)) = true
  rw [(encodeWrite_masked _ x).2]
  decide

theorem clrRdy (x : Byte) : Statement (.clrRdy x) := by
  intro _
  show (encodeWrite readyAddr x &&& 0xFF00 == (0x4A00 : StimWord)) = true
  rw [(encodeWrite_masked _ x).2]
  decide

theorem wrRsvdB (x : Byte) : Statement (.wrRsvdB x) := by
  intro _
  show (encodeWrite rsvdBAddr x &&& 0xFF00 == (0x4B00 : StimWord)) = true
  rw [(encodeWrite_masked _ x).2]
  decide

theorem wrRsvd (a : HAddr) (x : Byte) : Statement (.wrRsvd a x) := by
  intro h
  show (encodeWrite a x &&& 0xFC00 == (0x4C00 : StimWord)) = true
  rw [(encodeWrite_masked _ x).1]
  have h' : rsvdHighAddr a = true := h
  clear h
  revert a; decide

theorem reset : Statement .reset := by unfold Statement; decide
theorem tickMux : Statement .tickMux := by unfold Statement; decide
theorem tickMs : Statement .tickMs := by unfold Statement; decide
theorem edge : Statement .edge := by unfold Statement; decide

end Sys2Proof.Laws.EncodesItsRow
end

