-- ==== Sys2Proof/Laws/Trace.lean ====
section
/-! SUPPORT. How a trace runs: one operation at a time, in pieces, and repeated ticks (spec/00_scope.md R17). -/

namespace Sys2Proof.Machine

@[simp] theorem runTrace_nil (s : State) : runTrace [] s = .next s := rfl

/-- The first operation of a trace that answers a next state is followed by the rest from that state. -/
theorem runTrace_cons_of_next {i : Instr} {s t : State} (is : List Instr) (h : exec i s = .next t) :
    runTrace (i :: is) s = runTrace is t := by
  simp [runTrace, h]

/-- A trace whose first part answers a next state goes on from that state. -/
theorem runTrace_append_of_next {is : List Instr} {s t : State} (js : List Instr)
    (h : runTrace is s = .next t) : runTrace (is ++ js) s = runTrace js t := by
  induction is generalizing s with
  | nil => cases h; rfl
  | cons i is ih =>
    simp only [List.cons_append, runTrace] at h ⊢
    split at h
    · rename_i u hu
      exact ih h
    · cases h
    · cases h

theorem exec_tickMux (s : State) : exec .tickMux s = .next (s.withBlock (muxTick s.block)) := rfl

theorem exec_tickMs (s : State) : exec .tickMs s = .next (s.withBlock (msTick s.block)) := rfl

/-- One more TICK_MUX at the end of `REP k, TICK_MUX`. -/
theorem runTrace_rep_succ {k : Nat} {s t : State} (h : runTrace (pseudoRep k .tickMux) s = .next t) :
    runTrace (pseudoRep (k + 1) .tickMux) s = .next (t.withBlock (muxTick t.block)) := by
  have h1 := runTrace_append_of_next [Instr.tickMux] h
  unfold pseudoRep at h1 ⊢
  rw [List.replicate_succ', h1]
  rfl

end Sys2Proof.Machine
end

