-- ==== Sys2Proof/Tests/Slice0.lean ====
section
/-! SUPPORT. The model's own tests. Expected results are the spec's own examples and vectors (spec/95_test_vectors.md V1 to
V36, P1 to P5; the examples of the rules), read from the spec or worked by hand from a rule's pseudocode. The last part
shows, for each statement with hypotheses, a concrete state and operands that meet them. -/

namespace Sys2Proof.Tests

open Sys2Proof Sys2Proof.Machine

/-! ### WellFormed: an ill-formed term for each check (R75) -/

theorem test_wf_refuses_rd_rsvd_9 : (Instr.rdRsvd 0x9).wf = false := by decide
theorem test_wf_refuses_rd_rsvd_B : (Instr.rdRsvd 0xB).wf = false := by decide
theorem test_wf_refuses_wr_rsvd_0 : (Instr.wrRsvd 0x0 0x55).wf = false := by decide
theorem test_wf_takes_wr_rsvd_C : (Instr.wrRsvd 0xC 0x55).wf = true := by decide

/-! ### Decoding: words written out from R74's patterns (V30) -/

theorem test_decode_rd_digit : decode 0b0000001100000000 = .ok (.rdDigit 3) := by decide
theorem test_decode_rd_inten : decode 0b0000011100000000 = .ok (.rdInten 3) := by decide
theorem test_decode_rd_dp : decode 0b0000100000000000 = .ok .rdDp := by decide
theorem test_decode_rd_ms : decode 0b0000100100000000 = .ok .rdMs := by decide
theorem test_decode_rd_rdy : decode 0b0000101000000000 = .ok .rdRdy := by decide
theorem test_decode_rd_rsvd_B : decode 0b0000101100000000 = .ok .rdRsvdB := by decide
theorem test_decode_rd_rsvd_F : decode 0b0000111100000000 = .ok (.rdRsvd 0xF) := by decide
theorem test_decode_wr_digit : decode 0b0100001100000111 = .ok (.wrDigit 3 7) := by decide
theorem test_decode_wr_inten : decode 0b0100011101100100 = .ok (.wrInten 3 100) := by decide
theorem test_decode_wr_dp : decode 0b0100100000000100 = .ok (.wrDp 4) := by decide
theorem test_decode_clr_ms : decode 0b0100100111111111 = .ok (.clrMs 0xFF) := by decide
theorem test_decode_clr_rdy : decode 0b0100101001011010 = .ok (.clrRdy 0x5A) := by decide
theorem test_decode_wr_rsvd_B : decode 0b0100101101010101 = .ok (.wrRsvdB 0x55) := by decide
theorem test_decode_wr_rsvd_F : decode 0b0100111110101010 = .ok (.wrRsvd 0xF 0xAA) := by decide
theorem test_decode_reset : decode 0b1000000000000000 = .ok .reset := by decide
theorem test_decode_tick_mux : decode 0b1000000100000000 = .ok .tickMux := by decide
theorem test_decode_tick_ms : decode 0b1000001000000000 = .ok .tickMs := by decide
theorem test_decode_edge : decode 0b1000001100000000 = .ok .edge := by decide

/-! ### Words that are no stimulus (V31) -/

theorem test_reject_kind_3 : decode 0xFFFF = .error .reservedKind := by decide
theorem test_reject_zero_field : decode 0xA100 = .error .zeroFieldSet := by decide
theorem test_reject_read_with_data : decode 0x0001 = .error .readWithData := by decide
theorem test_reject_event_with_data : decode 0x8001 = .error .eventWithData := by decide
theorem test_reject_event_15 : decode 0x8F00 = .error .reservedEvent := by decide
theorem test_table_word : decodeTableWord 16 0x4307 = some (.wrDigit 3 7) := by decide

/-! ### One step each -/

/-- The state after an operation that answers a next state. -/
def after (i : Instr) (s : State) : State :=
  match exec i s with
  | .next t => t
  | .fault _ => s
  | .refused _ => s

/-- The reset state with another block. -/
def onBlock (b : Block) : State := State.reset.withBlock b

/-- R103's example: the end of digit 0's slot. -/
def slotEnd : State :=
  onBlock { Block.reset with
    digits := #v[1, 2, 3, 4], intens := #v[100, 50, 1, 0], dpPos := 2, duty := 100, dig := #v[false, false, false, false] }

/-- P3 at the write: digit 0 in its on-portion at count 10. -/
def onPortion : State :=
  onBlock { Block.reset with
    digits := #v[1, 2, 3, 4], intens := #v[50, 50, 50, 50], duty := 10, dig := #v[true, false, false, false] }

/-- P5 before step 505: digit 0 shown with its point, digit 1 holding the out-of-range code 17. -/
def badCodeNext : State :=
  onBlock { Block.reset with
    digits := #v[7, 17, 0, 0], intens := #v[10, 10, 0, 0], dpPos := 1, duty := 100, seg := 0x87 }

/-- R103's example: branch B. -/
theorem test_tick_mux_advance :
    (after .tickMux slotEnd).block.cur = 1 ∧ (after .tickMux slotEnd).block.duty = 0 ∧
      (after .tickMux slotEnd).block.dig = #v[false, true, false, false] := by decide

theorem test_tick_mux_advance_seg : (after .tickMux slotEnd).block.seg = segPattern true 2 := rfl

/-- R101 corner (b), P5 step 505: code 17 leaves `seg` and its point, and the digit is asserted all the same. -/
theorem test_render_out_of_range :
    (after .tickMux badCodeNext).block.seg = 0x87 ∧
      (after .tickMux badCodeNext).block.dig = #v[false, true, false, false] := by decide

/-- P1 step 504: full brightness is deasserted at count 100, one tick before the advance (R104 (d)). -/
theorem test_tick_mux_deassert_at_100 :
    (after .tickMux (onBlock { Block.reset with
      intens := #v[200, 0, 0, 0], duty := 99, dig := #v[true, false, false, false] })).block.dig =
      #v[false, false, false, false] := by decide

/-- P3: with intensity 0 an asserted digit is not deasserted (R112 (a)). -/
theorem test_tick_mux_missed_deassert :
    (after .tickMux (after (.wrInten 0 0) onPortion)).block.dig = #v[true, false, false, false] := by decide

theorem test_tick_ms_rollover :
    (after .tickMs (onBlock { Block.reset with ms := 0xFFFFFFFF })).block.ms = 0 := by decide
theorem test_tick_ms_counts : (after .tickMs (onBlock { Block.reset with ms := 41 })).block.ms = 42 := by decide
theorem test_rd_ms : (after .rdMs (onBlock { Block.reset with ms := 3600 })).hRdata = some 3600 := by decide
theorem test_clr_ms_ignores_data :
    (after (.clrMs 0xFF) (onBlock { Block.reset with ms := 2 })).block.ms = 0 := by decide
theorem test_edge_twice : (after .edge (after .edge State.reset)).block.ready = true := by decide
theorem test_rd_rdy : (after .rdRdy (after .edge State.reset)).hRdata = some 0x00000001 := by decide
theorem test_clr_rdy : (after (.clrRdy 0xFF) (after .edge State.reset)).block.ready = false := by decide

/-- V28: any 8-bit value is stored and read back; no clamping at the port. -/
theorem test_rd_digit : (after (.rdDigit 0) (after (.wrDigit 0 255) State.reset)).hRdata = some 255 := by decide
theorem test_rd_inten : (after (.rdInten 3) (after (.wrInten 3 200) State.reset)).hRdata = some 200 := by decide
theorem test_rd_dp : (after .rdDp (after (.wrDp 5) State.reset)).hRdata = some 5 := by decide
theorem test_rd_other_digit : (after (.rdDigit 1) (after (.wrDigit 0 255) State.reset)).hRdata = some 0 := by decide
theorem test_write_returns_no_value : (after (.wrDp 5) (after .rdMs State.reset)).hRdata = none := by decide

/-- V29: reserved addresses. -/
theorem test_rd_rsvd : (after .rdRsvdB slotEnd).hRdata = some 0 ∧ (after (.rdRsvd 0xF) slotEnd).hRdata = some 0 := by
  decide
theorem test_wr_rsvd :
    (after (.wrRsvdB 0x55) slotEnd).block = slotEnd.block ∧
      (after (.wrRsvd 0xF 0xAA) slotEnd).block = slotEnd.block := by decide

/-- V33: RESET from a running state. -/
theorem test_reset : (after .reset badCodeNext).block = Block.reset := by decide

/-- The whole path: a word placed for the next step is decoded and run (V30h). -/
theorem test_step_runs_word :
    (match step (State.reset.withFetchWord 16 0x4307) with
      | .next t => t.block.digits[3]
      | .fault _ => 0
      | .refused _ => 0) = 7 := by decide

theorem test_dig_port : (after .tickMux slotEnd).block.digPort = 0b0010 := by decide

/-! ### Host software (V34, V35, V36) and text -/

theorem test_power_format_3601 : powerFormat 3601 = ⟨999, 1, true⟩ := by decide
theorem test_scale_99950 : scaleReading 99950 = ⟨1000, 3, true⟩ := by decide
theorem test_blanks_7_3 :
    (blanks ⟨7, 3, false⟩ 0, blanks ⟨7, 3, false⟩ 1, blanks ⟨7, 3, false⟩ 2) = (true, true, false) := by decide
theorem test_assemble_wr_inten : (assemble "WR_INTEN" [3, 100]).map encode = some 0x4764 := by decide
theorem test_assemble_refuses_digit_4 : assemble "RD_DIGIT" [4] = none := by decide

/-! ### Witnesses: the hypotheses of each statement can be met -/

theorem witness_reserved_addresses : 0xB ≤ (0xB#4).toNat ∧ 0xB ≤ (0xF#4).toNat ∧ 0xC ≤ (0xC#4).toNat := by decide

theorem witness_OperationIsTheStepOfItsPorts :
    (Instr.rdRsvd 0xC).wf = true ∧ (Instr.wrRsvd 0xF 1).wf = true ∧ Instr.tickMux.wf = true := by decide

theorem witness_RdDigitReturnsTheRegister :
    ∃ t u, exec (.wrDigit 3 7) State.reset = .next t ∧ exec (.rdDigit 3) t = .next u := ⟨_, _, rfl, rfl⟩

theorem witness_RdIntenReturnsTheRegister :
    ∃ t u, exec (.wrInten 0 200) State.reset = .next t ∧ exec (.rdInten 0) t = .next u := ⟨_, _, rfl, rfl⟩

theorem witness_RdMsReturnsTheTickCount :
    ((Instr.clrMs 5) = .reset ∨ (Instr.clrMs 5) = .clrMs 5) ∧
      ∀ j ∈ [Instr.tickMs, .rdMs, .tickMux, .tickMs], j ≠ .reset ∧ ∀ y : Byte, j ≠ .clrMs y := by
  refine ⟨.inr rfl, ?_⟩
  intro j hj
  simp only [List.mem_cons, List.not_mem_nil, or_false] at hj
  rcases hj with rfl | rfl | rfl | rfl <;> exact ⟨by decide, fun y => by simp⟩

theorem witness_RenderDrivesOrKeepsTheSegments : (16 : Fin 17).val = (16#8).toNat ∧ 16 < (17#8).toNat := by decide

/-- Branch A of TICK_MUX at its boundary: count 100 under full brightness. -/
theorem witness_TickMux_branchA : (99#7).toNat + 1 = min (100#8).toNat 100 := by decide

/-- Branch B at its boundary, in `slotEnd`. -/
theorem witness_TickMux_branchB :
    slotEnd.block.duty.toNat + 1 ≠ min slotEnd.block.intens[slotEnd.block.cur].toNat 100 ∧
      100 < slotEnd.block.duty.toNat + 1 ∧ (1 : DigitIx).val = (slotEnd.block.cur.val + 1) % 4 := by decide

/-- Branch C at its boundary: count 100 under intensity 99. -/
theorem witness_TickMux_branchC : (99#7).toNat + 1 ≠ min (99#8).toNat 100 ∧ (99#7).toNat + 1 ≤ 100 := by decide

theorem witness_BufferChangesOnlyByItsWriter :
    (∃ t, exec .tickMux slotEnd = .next t) ∧ writesBuffer .tickMux = false ∧ (2 : DigitIx) ≠ 3 ∧
      (∃ t, exec (.wrDigit 3 7) slotEnd = .next t) ∧ (∃ t, exec (.wrInten 3 7) slotEnd = .next t) ∧
      (∃ t, exec (.wrDp 7) slotEnd = .next t) :=
  ⟨⟨_, rfl⟩, rfl, by decide, ⟨_, rfl⟩, ⟨_, rfl⟩, ⟨_, rfl⟩⟩

theorem witness_CursorBelongsToTickMux :
    (∃ t, exec .tickMux slotEnd = .next t) ∧ (∃ t, exec .tickMs slotEnd = .next t) ∧ Instr.tickMs ≠ .tickMux ∧
      Instr.tickMs ≠ .reset := ⟨⟨_, rfl⟩, ⟨_, rfl⟩, by decide, by decide⟩

theorem witness_DigChangesOnlyAtItsOwnTicks :
    exec .tickMux slotEnd = .next (after .tickMux slotEnd) ∧ slotEnd.block.dig[(1 : DigitIx)] = false ∧
      (after .tickMux slotEnd).block.dig[(1 : DigitIx)] = true ∧
      exec .reset onPortion = .next (after .reset onPortion) ∧ onPortion.block.dig[(0 : DigitIx)] = true ∧
      (after .reset onPortion).block.dig[(0 : DigitIx)] = false := ⟨rfl, by decide, by decide, rfl, by decide, by decide⟩

theorem witness_SegChangesOnlyAtAnAdvance :
    exec .reset badCodeNext = .next (after .reset badCodeNext) ∧
      (after .reset badCodeNext).block.seg ≠ badCodeNext.block.seg := ⟨rfl, by decide⟩

theorem witness_ReadyIsSetByEdgeAndReadByNobodyElse :
    (∃ t, exec .edge slotEnd = .next t) ∧ (∃ t, exec (.clrRdy 1) slotEnd = .next t) ∧
      (∃ t, exec .rdRdy slotEnd = .next t) ∧
      (∃ t, exec .tickMs (after .edge slotEnd) = .next t ∧ t.block.ready = true) :=
  ⟨⟨_, rfl⟩, ⟨_, rfl⟩, ⟨_, rfl⟩, ⟨_, rfl, rfl⟩⟩

theorem witness_EachAgentWritesOnlyItsOwnState :
    (∃ t, exec .tickMux slotEnd = .next t) ∧ (∃ t, exec .tickMs slotEnd = .next t) ∧
      (∃ t, exec .edge slotEnd = .next t) ∧ (∃ t, exec .rdMs slotEnd = .next t ∧ t.hRdata ≠ none) ∧
      (Instr.tickMux.agent, Instr.tickMs.agent, Instr.edge.agent, Instr.rdMs.agent) = (.mux, .ms, .cap, .host) :=
  ⟨⟨_, rfl⟩, ⟨_, rfl⟩, ⟨_, rfl⟩, ⟨_, rfl, by simp [hostReadStep, State.answer]⟩, rfl⟩

theorem witness_OperationsLeaveStimuliAndEventsLeaveThePort :
    (∃ t, exec .edge slotEnd = .next t) ∧ Instr.edge.agent ≠ .host := ⟨⟨_, rfl⟩, by decide⟩

theorem witness_CommutingPairsOfSteps :
    ((Instr.clrMs 1).agent = .host ∧ writesBuffer (.clrMs 1) = false) ∧
      (∃ t, runTrace [.tickMs, .rdMs] slotEnd = .next t) ∧ (∃ t, runTrace [.rdMs, .tickMs] slotEnd = .next t) ∧
      (∃ t, runTrace [.tickMs, .clrMs 1] slotEnd = .next t) ∧ (∃ t, runTrace [.clrMs 1, .tickMs] slotEnd = .next t) ∧
      (∃ t, runTrace [.edge, .rdRdy] slotEnd = .next t) ∧ (∃ t, runTrace [.rdRdy, .edge] slotEnd = .next t) ∧
      (∃ t, runTrace [.edge, .clrRdy 1] slotEnd = .next t) ∧ (∃ t, runTrace [.clrRdy 1, .edge] slotEnd = .next t) ∧
      (∃ t, runTrace [.edge, .reset] slotEnd = .next t) :=
  ⟨⟨rfl, rfl⟩, ⟨_, rfl⟩, ⟨_, rfl⟩, ⟨_, rfl⟩, ⟨_, rfl⟩, ⟨_, rfl⟩, ⟨_, rfl⟩, ⟨_, rfl⟩, ⟨_, rfl⟩, ⟨_, rfl⟩⟩

theorem witness_DecodeOfEncodeIsTheOperation : (Instr.wrRsvd 0xC 0xAA).wf = true := by decide

theorem witness_EncodeOfDecodeIsTheWord : decode 0x4764 = .ok (.wrInten 3 100) := by decide

theorem witness_DecodeAgreesWithTheOpcodeTable :
    (opcodeTable[(8 : Fin 18)]).covers 0x4764 = true := by decide

theorem witness_AssemblerReadsTheTextBack : (Instr.wrRsvd 0xF 0xAA).wf = true ∧ (Instr.clrMs 9).wf = true := by decide

theorem witness_StepRunsTheDecodedOperation :
    (State.reset.withFetchWord 16 0x8300).stimuli = 0x8300 :: [] ∧ decode 0x8300 = .ok .edge ∧
      decodeTableWord 16 0x8300 = some .edge := by decide

theorem witness_StepRefusesOnlyNonStimuli :
    ∃ r, step (State.reset.withFetchWord 16 0xC000) = .refused r := ⟨_, rfl⟩

theorem witness_StepWithoutStimulusIdles : State.reset.stimuli = [] := rfl

theorem witness_StepsOfATraceAreItsFold : ∀ i ∈ [Instr.reset, .wrDigit 3 7, .tickMux], i.wf = true := by decide

/-- `slotEnd` is within the cursor's range, at its boundary, and steps on. -/
theorem witness_EveryStepKeepsDutyInRange :
    DutyInRange (slotEnd.withFetchWord 16 0x8100) ∧ ∃ t, step (slotEnd.withFetchWord 16 0x8100) = .next t :=
  ⟨by unfold DutyInRange; decide, ⟨_, rfl⟩⟩

/-- Digit 0 in its on-portion, with a TICK_MUX pending, is a steady display. -/
theorem witness_EveryStepKeepsTheDisplaySteady :
    SteadyDisplay (onPortion.withFetchWord 16 0x8100) ∧ ∃ t, step (onPortion.withFetchWord 16 0x8100) = .next t := by
  refine ⟨⟨by unfold LitOnlyInOwnSlot; decide, ?_⟩, ⟨_, rfl⟩⟩
  intro w hw i hi
  have hw' : w = 0x8100 := by simpa [State.withFetchWord, stimuliWithFirst, onPortion, onBlock, State.reset] using hw
  subst hw'
  cases (show decode 0x8100 = .ok .tickMux by decide).symm.trans hi
  rfl

/-- Digit 3 of R103's example is blanked while ticks, a write to another digit's intensity and a write of 0 are pending. -/
theorem witness_EveryStepKeepsABlankedDigitDark :
    BlankedDigit 3 { slotEnd with stimuli := [0x8100, 0x4532, 0x4700] } ∧
      ∃ t, step { slotEnd with stimuli := [0x8100, 0x4532, 0x4700] } = .next t := by
  refine ⟨⟨by decide, by decide, ?_⟩, ⟨_, rfl⟩⟩
  intro w hw d hd
  simp only [List.mem_cons, List.not_mem_nil, or_false] at hw
  rcases hw with rfl | rfl | rfl
  · cases (show decode 0x8100 = .ok .tickMux by decide).symm.trans hd
  · cases (show decode 0x4532 = .ok (.wrInten 1 50) by decide).symm.trans hd
  · cases (show decode 0x4700 = .ok (.wrInten 3 0) by decide).symm.trans hd
    rfl

theorem witness_SlotIs101TicksAndFrame404 : State.reset.block.duty = 0 ∧ (100 : Nat) ≤ 100 := by decide

/-- The state after an advance into digit 1, intensity 50. -/
theorem witness_DutyCycleIsIntensityOver404 :
    (after .tickMux slotEnd).block.duty = 0 ∧
      (after .tickMux slotEnd).block.dig[(after .tickMux slotEnd).block.cur] = true ∧
      (after .tickMux slotEnd).block.intens[(after .tickMux slotEnd).block.cur] ≠ 0 := by decide

theorem witness_MissedDeassertLastsToTheEndOfTheSlot :
    (after (.wrInten 0 0) onPortion).block.dig[(after (.wrInten 0 0) onPortion).block.cur] = true ∧
      min (after (.wrInten 0 0) onPortion).block.intens[(after (.wrInten 0 0) onPortion).block.cur].toNat 100 ≤
        (after (.wrInten 0 0) onPortion).block.duty.toNat ∧
      (after (.wrInten 0 0) onPortion).block.duty.toNat + 90 ≤ 100 := by decide

theorem witness_LitDigitIsDeassertedWithinAFrame :
    DutyInRange onPortion ∧ onPortion.block.intens[(0 : DigitIx)] ≠ 0 :=
  ⟨by unfold DutyInRange; decide, by decide⟩

theorem witness_EveryDigitIsRenderedWithinAFrame :
    DutyInRange slotEnd ∧ (2 : Fin 17).val = slotEnd.block.digits[(1 : DigitIx)].toNat :=
  ⟨by unfold DutyInRange; decide, by decide⟩

theorem witness_GlyphWriteIsUnseenBeforeTheAdvance :
    (∃ (j : DigitIx) (d : Byte), Instr.wrDigit 0 9 = .wrDigit j d) ∧ (∃ d : Byte, Instr.wrDp 9 = .wrDp d) ∧
      onPortion.block.duty.toNat + 90 ≤ 100 := ⟨⟨0, 9, rfl⟩, ⟨9, rfl⟩, by decide⟩

theorem witness_DisplayIsDarkUntilAnIntensityIsWritten :
    ∀ i ∈ [Instr.tickMux, .wrDigit 0 8, .edge, .reset, .tickMux], writesInten i = false := by decide

theorem witness_MsCountsTheTicksOfAnyTrace :
    (∀ i ∈ [Instr.tickMs, .edge, .rdMs, .tickMs], i = .tickMs ∨ writesMs i = false) ∧
      ∃ t, exec .edge slotEnd = .next t := ⟨by decide, ⟨_, rfl⟩⟩

theorem witness_ReadyIffAnEdgeSinceTheClear : State.reset.block.ready = false := rfl

/-- The three ranges of the Power Formatter's clauses are met: row 1, rows 2 and 3. -/
theorem witness_PowerFormatterFitsFourDigits :
    999500 ≤ power 1 ∧ 9995 ≤ power 360 ∧ power 360 < 999500 := by decide

theorem witness_DecimalDigitsRoundTrip : (9999 : Nat) ≤ 9999 := by decide

theorem witness_MainLoopTakesTheSample : (after .edge State.reset).block.ready = true := by decide

/-- The device at start-up meets the premises on the host, and an edge reaches it. -/
theorem witness_HostIsTheOnlyWriterAndConsumer :
    Device.boot.host.issuesOnlyAccesses = true ∧ DeviceEvent.edgeEvt.op ≠ .reset ∧
      ∃ e, Device.boot.eventTurn .edgeEvt = .next e := ⟨by rfl, by decide, ⟨_, rfl⟩⟩

/-- Each Display Buffer write and each event answers on both sides of a RESET. -/
theorem witness_CommutingPairsOfSteps_reset :
    ∀ i ∈ [Instr.tickMs, .edge, .tickMux, .wrDigit 3 7, .wrInten 3 100, .wrDp 4],
      (∃ t, runTrace [i, .reset] slotEnd = .next t) ∧ ∃ u, runTrace [.reset, i] slotEnd = .next u := by
  intro i hi
  simp only [List.mem_cons, List.not_mem_nil, or_false] at hi
  rcases hi with rfl | rfl | rfl | rfl | rfl | rfl <;> exact ⟨⟨_, rfl⟩, ⟨_, rfl⟩⟩

end Sys2Proof.Tests
end

/-! The effect of every operation, said once, and the statements of spec/10_state.md about who writes and who reads each
state element (R25, R27, R30, R32, R37). -/

namespace Sys2Proof.Machine

/-! ### What an operation leaves in the block and answers on the host port -/

/-- The block an operation leaves, as one function of the operation and the block; `exec_eq` ties it to `exec`. -/
@[simp] def blockAfter : Instr → Block → Block
  | .rdDigit _, b | .rdInten _, b | .rdDp, b | .rdMs, b | .rdRdy, b | .rdRsvdB, b | .rdRsvd _, b => b
  | .wrDigit i d, b => b.setDigit i d
  | .wrInten i d, b => b.setInten i d
  | .wrDp d, b => b.setDpPos d
  | .clrMs _, b => b.setMs 0
  | .clrRdy _, b => b.clearReady
  | .wrRsvdB _, b | .wrRsvd _ _, b => b
  | .reset, _ => Block.reset
  | .tickMux, b => muxTick b
  | .tickMs, b => msTick b
  | .edge, b => b.setReady

/-- The host port's answer after an operation that finds the block `b` and the answer `old`: a read's value, none after a
write, and `old` after an event; `exec_eq` ties it to `exec`. -/
@[simp] def rdataAfter : Instr → Block → Option Word32 → Option Word32
  | .rdDigit i, b, _ => some (zext32 b.digits[i])
  | .rdInten i, b, _ => some (zext32 b.intens[i])
  | .rdDp, b, _ => some (zext32 b.dpPos)
  | .rdMs, b, _ => some b.ms
  | .rdRdy, b, _ => some b.readReady
  | .rdRsvdB, _, _ | .rdRsvd _, _, _ => some 0
  | .wrDigit _ _, _, _ | .wrInten _ _, _, _ | .wrDp _, _, _ | .clrMs _, _, _ | .clrRdy _, _, _ => none
  | .wrRsvdB _, _, _ | .wrRsvd _ _, _, _ => none
  | .reset, _, old | .tickMux, _, old | .tickMs, _, old | .edge, _, old => old

/-- Every operation completes, leaves `blockAfter` in the block and `rdataAfter` on the host port, and touches nothing
else. -/
theorem exec_eq (i : Instr) (s : State) :
    exec i s = .next ((s.withBlock (blockAfter i s.block)).answer (rdataAfter i s.block s.hRdata)) := by
  cases i with
  | rdDigit k => simp [exec, execRdDigit, hostReadStep, State.withBlock]
  | rdInten k => simp [exec, execRdInten, hostReadStep, State.withBlock]
  | wrDigit k d => simp [exec, execWrDigit, hostWriteStep]
  | wrInten k d => simp [exec, execWrInten, hostWriteStep]
  | _ => rfl

theorem exec_eq_next_iff {i : Instr} {s t : State} :
    exec i s = .next t ↔ t = (s.withBlock (blockAfter i s.block)).answer (rdataAfter i s.block s.hRdata) := by
  rw [exec_eq, Host.Outcome.next.injEq, eq_comm]

theorem block_of_exec {i : Instr} {s t : State} (h : exec i s = .next t) : t.block = blockAfter i s.block := by
  simp [exec_eq_next_iff.mp h]

theorem hRdata_of_exec {i : Instr} {s t : State} (h : exec i s = .next t) :
    t.hRdata = rdataAfter i s.block s.hRdata := by
  simp [exec_eq_next_iff.mp h]

/-- An operation run on another block `b` answers as it did, and leaves a block that `P` holds of: enough to say that it
does not depend on what sets `b` apart. -/
theorem exists_exec_withBlock_of {i : Instr} {s t : State} {b : Block} {P : Block → Prop} (h : exec i s = .next t)
    (hr : rdataAfter i b s.hRdata = rdataAfter i s.block s.hRdata) (hb : P (blockAfter i b)) :
    ∃ u, exec i (s.withBlock b) = .next u ∧ u.hRdata = t.hRdata ∧ P u.block :=
  ⟨_, exec_eq i (s.withBlock b), by rw [hRdata_of_exec h]; exact hr, hb⟩

/-! ### The operations of an agent (R74) -/

theorem agent_eq_mux_iff {i : Instr} : i.agent = .mux ↔ i = .tickMux := by
  cases i <;> simp [Instr.agent]

theorem agent_eq_ms_iff {i : Instr} : i.agent = .ms ↔ i = .tickMs := by
  cases i <;> simp [Instr.agent]

theorem agent_eq_cap_iff {i : Instr} : i.agent = .cap ↔ i = .edge := by
  cases i <;> simp [Instr.agent]

/-- An operation of the host is no event. -/
theorem ne_event_of_host {i : Instr} (h : i.agent = .host) :
    i ≠ .reset ∧ i ≠ .tickMux ∧ i ≠ .tickMs ∧ i ≠ .edge := by
  refine ⟨?_, ?_, ?_, ?_⟩ <;> rintro rfl <;> cases h

/-! ### Who writes each element -/

/-- Only a write to the Display Buffer and RESET change it (R25). -/
theorem blockAfter_sameBuffer {i : Instr} (b : Block) (h : writesBuffer i = false) :
    SameBuffer (blockAfter i b) b := by
  cases i with
  | tickMux =>
    obtain ⟨hdigits, hintens, hdp, -, -⟩ := muxTick_frame b
    exact ⟨hdigits, hintens, hdp⟩
  | wrDigit | wrInten | wrDp | reset => cases h
  | _ => exact ⟨rfl, rfl, rfl⟩

/-- Only TICK_MUX and RESET write the cursor and the outputs (R27, R29, R30). -/
theorem blockAfter_sameCursor_sameOutputs {i : Instr} (b : Block) (hmux : i ≠ .tickMux) (hrst : i ≠ .reset) :
    SameCursor (blockAfter i b) b ∧ SameOutputs (blockAfter i b) b := by
  cases i with
  | tickMux => exact absurd rfl hmux
  | reset => exact absurd rfl hrst
  | _ => exact ⟨⟨rfl, rfl⟩, rfl, rfl⟩

/-- Only TICK_MS, CLR_MS and RESET write `ms` (R31). -/
theorem blockAfter_ms {i : Instr} (b : Block) (h : writesMs i = false) : (blockAfter i b).ms = b.ms := by
  cases i with
  | tickMux =>
    obtain ⟨-, -, -, hms, -⟩ := muxTick_frame b
    exact hms
  | tickMs | clrMs | reset => cases h
  | _ => rfl

/-- Only EDGE sets `ready`; CLR_RDY and RESET clear it, and every other operation leaves it (R32). -/
theorem blockAfter_ready {i : Instr} (b : Block) (hedge : i ≠ .edge) :
    (blockAfter i b).ready = if clearsReady i then false else b.ready := by
  cases i with
  | tickMux =>
    obtain ⟨-, -, -, -, hready⟩ := muxTick_frame b
    exact hready
  | edge => exact absurd rfl hedge
  | _ => rfl

/-- A host access leaves `ms` or clears it (R31). -/
theorem blockAfter_ms_of_host {i : Instr} (b : Block) (h : i.agent = .host) :
    (blockAfter i b).ms = b.ms ∨ (blockAfter i b).ms = 0 := by
  cases i with
  | clrMs => exact .inr rfl
  | reset | tickMux | tickMs | edge => cases h
  | _ => exact .inl rfl

/-- A host access that answers a value is a read, and leaves the block (R71). -/
theorem blockAfter_eq_of_rdata {i : Instr} {b : Block} {old : Option Word32} (h : i.agent = .host)
    (hr : rdataAfter i b old ≠ none) : blockAfter i b = b := by
  cases i with
  | wrDigit | wrInten | wrDp | clrMs | clrRdy => exact absurd rfl hr
  | reset | tickMux | tickMs | edge => cases h
  | _ => rfl

/-! ### The four registers of a kind are distinct storage -/

theorem getElem_set_digitIx {α : Type} (v : Vector α 4) (i k : DigitIx) (x : α) :
    (v.set i x)[k] = if i = k then x else v[k] := by
  simp [Vector.getElem_set, Fin.ext_iff]

theorem getElem_set_digitIx_of_ne {α : Type} (v : Vector α 4) {i k : DigitIx} (x : α) (h : k ≠ i) :
    (v.set i x)[k] = v[k] := by
  rw [getElem_set_digitIx, if_neg h.symm]

/-- RESET asserts no line (R36). -/
theorem Block.reset_dig_getElem (k : DigitIx) : Block.reset.dig[k] = false := by
  revert k; decide

/-! ### TICK_MUX: the cursor and the digit-select outputs -/

/-- The next digit's index is `(cur + 1) mod 4` (R27). -/
theorem succ_digitIx_val (c : DigitIx) : (c + 1).val = (c.val + 1) % 4 := rfl

/-- TICK_MUX counts and stays in the digit, or starts the next digit's slot (R27). -/
theorem muxTick_cursor (b : Block) :
    ((muxTick b).duty.toNat = b.duty.toNat + 1 ∧ (muxTick b).cur = b.cur) ∨
      (100 < b.duty.toNat + 1 ∧ (muxTick b).duty = 0 ∧ (muxTick b).cur = b.cur + 1) := by
  rcases muxTick_cases b with ⟨hn, h⟩ | ⟨-, hwrap, h⟩ | ⟨-, hle, h⟩
  · have hle : b.duty.toNat + 1 ≤ 100 := hn ▸ clampIntens_le _
    exact .inl (by simpa [h] using setDuty_toNat b hle)
  · exact .inr ⟨hwrap, by simp [h, advance_eq]⟩
  · exact .inl (by simpa [h] using setDuty_toNat b hle)

/-- An advance into digit `c` asserts line `c` when its intensity is nonzero, and touches no other line (R103, R105). -/
theorem advance_dig_getElem (c k : DigitIx) (b : Block) :
    (advance c b).dig[k] = if c = k ∧ b.intens[k] ≠ 0 then true else b.dig[k] := by
  by_cases hz : b.intens[c] = 0
  · have hdig : (advance c b).dig = b.dig := by rw [advance_eq]; exact if_neg (not_not.mpr hz)
    rw [hdig, if_neg]
    rintro ⟨rfl, hne⟩
    exact hne hz
  · have hdig : (advance c b).dig = b.dig.set c true := by rw [advance_eq]; exact if_pos hz
    rw [hdig, getElem_set_digitIx]
    by_cases hk : c = k
    · subst hk
      rw [if_pos rfl, if_pos ⟨rfl, hz⟩]
    · rw [if_neg hk, if_neg (mt And.left hk)]

/-- All that TICK_MUX can do to line `k`: leave it, deassert it in digit `k`'s slot at the count of its clamped intensity,
or assert it at an advance into digit `k`, whose intensity is nonzero (R30). -/
theorem muxTick_dig_cases (b : Block) (k : DigitIx) :
    (muxTick b).dig[k] = b.dig[k] ∨
      ((muxTick b).dig[k] = false ∧ b.cur = k ∧ b.duty.toNat + 1 = min b.intens[k].toNat 100) ∨
      ((muxTick b).dig[k] = true ∧ 100 < b.duty.toNat + 1 ∧ b.cur + 1 = k ∧ (muxTick b).cur = k ∧
        (muxTick b).duty = 0 ∧ b.intens[k] ≠ 0) := by
  rcases muxTick_cases b with ⟨hn, h⟩ | ⟨-, hwrap, h⟩ | ⟨-, -, h⟩
  · rw [h, Block.setDig_dig, Block.setDuty_dig, getElem_set_digitIx]
    by_cases hk : b.cur = k
    · subst hk
      exact .inr (.inl ⟨if_pos rfl, rfl, hn⟩)
    · exact .inl (if_neg hk)
  · rw [h, advance_dig_getElem]
    by_cases hlit : b.cur + 1 = k ∧ b.intens[k] ≠ 0
    · have ⟨hk, hint⟩ := hlit
      exact .inr (.inr ⟨if_pos hlit, hwrap, hk, by rw [advance_eq, hk], by rw [advance_eq], hint⟩)
    · exact .inl (if_neg hlit)
  · rw [h]
    exact .inl rfl

/-! ### Who reads the cursor and the Ready Flag -/

/-- TICK_MUX neither reads nor writes `ready` (R32). -/
theorem muxTick_withReady (b : Block) (v : Bool) :
    muxTick { b with ready := v } = { muxTick b with ready := v } := by
  simp only [muxTick, advance_eq]
  split_ifs <;> rfl

/-- No operation but RD_RDY answers with `ready`. -/
theorem rdataAfter_withReady {i : Instr} (b : Block) (v : Bool) (old : Option Word32) (h : i ≠ .rdRdy) :
    rdataAfter i { b with ready := v } old = rdataAfter i b old := by
  cases i with
  | rdRdy => exact absurd rfl h
  | _ => rfl

/-- What an operation leaves beside `ready` does not depend on `ready`. -/
theorem blockAfter_withReady (i : Instr) (b : Block) (v : Bool) :
    { blockAfter i { b with ready := v } with ready := (blockAfter i b).ready } = blockAfter i b := by
  cases i with
  | tickMux => simp only [blockAfter, muxTick_withReady]
  | _ => rfl

/-- No operation answers with the cursor. -/
theorem rdataAfter_withCursor (i : Instr) (b : Block) (c : DigitIx) (d : BitVec 7) (old : Option Word32) :
    rdataAfter i { b with cur := c, duty := d } old = rdataAfter i b old := by
  cases i <;> rfl

/-- What an operation other than TICK_MUX leaves beside the cursor does not depend on the cursor. -/
theorem blockAfter_withCursor {i : Instr} (b : Block) (c : DigitIx) (d : BitVec 7) (h : i ≠ .tickMux) :
    { blockAfter i { b with cur := c, duty := d } with cur := (blockAfter i b).cur, duty := (blockAfter i b).duty } =
      blockAfter i b := by
  cases i with
  | tickMux => exact absurd rfl h
  | _ => rfl

end Sys2Proof.Machine

namespace Sys2Proof

open Sys2Proof.Machine

/-- Settles O23: the frame of the operations that do not write the buffer, and for each of the three writes the distinctness
of the registers. -/
theorem bufferChangesOnlyByItsWriter : Obligations.BufferChangesOnlyByItsWriter := by
  intro i s t h
  rw [block_of_exec h]
  refine ⟨blockAfter_sameBuffer s.block, ?_, ?_, ?_⟩
  · rintro k d rfl
    exact ⟨fun j hj => getElem_set_digitIx_of_ne _ _ hj, rfl, rfl⟩
  · rintro k d rfl
    exact ⟨fun j hj => getElem_set_digitIx_of_ne _ _ hj, rfl, rfl⟩
  · rintro d rfl
    exact ⟨rfl, rfl⟩

/-- Settles O24: TICK_MUX's rule for the cursor, the other operations' frame, and that their answer and their effect beside
the cursor are the same from any cursor. -/
theorem cursorBelongsToTickMux : Obligations.CursorBelongsToTickMux := by
  refine ⟨?_, ?_, ?_⟩
  · intro s t h
    rw [block_of_exec h, ← succ_digitIx_val]
    rcases muxTick_cursor s.block with hcount | ⟨-, hduty, hcur⟩
    · exact .inl hcount
    · exact .inr ⟨hduty, congrArg Fin.val hcur⟩
  · intro i s t hmux hrst h
    rw [block_of_exec h]
    exact (blockAfter_sameCursor_sameOutputs s.block hmux hrst).1
  · intro i s t c d hmux h
    refine exists_exec_withBlock_of h (rdataAfter_withCursor ..)
      (P := fun b => { b with cur := t.block.cur, duty := t.block.duty } = t.block) ?_
    rw [block_of_exec h]
    exact blockAfter_withCursor s.block c d hmux

/-- Settles O25: no operation but TICK_MUX and RESET writes the lines, RESET asserts none, and TICK_MUX has a condition for
each direction. -/
theorem digChangesOnlyAtItsOwnTicks : Obligations.DigChangesOnlyAtItsOwnTicks := by
  intro i s t k h
  rw [block_of_exec h]
  by_cases hmux : i = .tickMux
  · subst hmux
    rw [blockAfter]
    rcases muxTick_dig_cases s.block k with hsame | ⟨hfalse, hcur, hn⟩ | ⟨htrue, hwrap, hk, hcur, hduty, hint⟩
    · rw [hsame]
      exact ⟨fun hoff hon => (nomatch hoff.symm.trans hon), fun hon hoff => (nomatch hon.symm.trans hoff)⟩
    · exact ⟨fun _ hon => (nomatch hfalse.symm.trans hon), fun _ _ => .inr ⟨rfl, hcur, hn⟩⟩
    · exact ⟨fun _ _ => ⟨rfl, hwrap, hk ▸ succ_digitIx_val _, hcur, hduty, hint⟩,
        fun _ hoff => (nomatch htrue.symm.trans hoff)⟩
  by_cases hrst : i = .reset
  · subst hrst
    exact ⟨fun _ hon => (nomatch (Block.reset_dig_getElem k).symm.trans hon), fun _ _ => .inl rfl⟩
  · obtain ⟨-, -, hdig⟩ := blockAfter_sameCursor_sameOutputs s.block hmux hrst
    rw [hdig]
    exact ⟨fun hoff hon => (nomatch hoff.symm.trans hon), fun hon hoff => (nomatch hon.symm.trans hoff)⟩

/-- Settles O27: the effect of EDGE, CLR_RDY and RD_RDY, the writers of the flag, and that no other operation's answer or
effect depends on it. -/
theorem readyIsSetByEdgeAndReadByNobodyElse : Obligations.ReadyIsSetByEdgeAndReadByNobodyElse := by
  refine ⟨?_, ?_, ?_, ?_, ?_⟩
  · intro s t h
    rw [block_of_exec h]
    rfl
  · intro x s t h
    rw [block_of_exec h]
    rfl
  · intro s t h
    exact ⟨hRdata_of_exec h, block_of_exec h⟩
  · intro i s t hedge h hset
    rw [block_of_exec h, blockAfter_ready s.block hedge] at hset
    split at hset
    · cases hset
    · exact hset
  · intro i s t v hrd h
    refine exists_exec_withBlock_of h (rdataAfter_withReady _ _ _ hrd)
      (P := fun b => { b with ready := t.block.ready } = t.block) ?_
    rw [block_of_exec h]
    exact blockAfter_withReady i s.block v

/-- Settles O28: each agent's operations, and what each element's list of writers leaves to them. -/
theorem eachAgentWritesOnlyItsOwnState : Obligations.EachAgentWritesOnlyItsOwnState := by
  intro i s t h
  rw [block_of_exec h, hRdata_of_exec h]
  refine ⟨fun hag => ?_, fun hag => ?_, fun hag => ?_, fun hag => ?_⟩
  · obtain rfl := agent_eq_mux_iff.mp hag
    exact ⟨blockAfter_ms _ rfl, blockAfter_ready _ (by decide), blockAfter_sameBuffer _ rfl⟩
  · obtain rfl := agent_eq_ms_iff.mp hag
    rfl
  · obtain rfl := agent_eq_cap_iff.mp hag
    rfl
  · obtain ⟨hrst, hmux, -, hedge⟩ := ne_event_of_host hag
    obtain ⟨hcursor, houtputs⟩ := blockAfter_sameCursor_sameOutputs s.block hmux hrst
    refine ⟨hcursor, houtputs, blockAfter_ms_of_host _ hag, ?_, blockAfter_eq_of_rdata hag⟩
    rw [blockAfter_ready s.block hedge]
    cases clearsReady i with
    | true => exact .inr rfl
    | false => exact .inl rfl

end Sys2Proof

/-! HostRead and HostWrite against the register map of spec/20_memory.md (R51 to R53). -/

namespace Sys2Proof.Machine

/-! ### The map's numeric addresses (R51) -/

theorem ofNat_eq_digitAddr (i : DigitIx) : BitVec.ofNat 4 (0x0 + i.val) = digitAddr i := by
  revert i; decide

theorem ofNat_eq_intenAddr (i : DigitIx) : BitVec.ofNat 4 (0x4 + i.val) = intenAddr i := by
  revert i; decide

/-! ### The value read from `READY` (R32) -/

theorem Block.readReady_eq (b : Block) : b.readReady = if b.ready then 1 else 0 := by
  unfold Block.readReady
  cases b.ready with
  | false => rfl
  | true => rfl

/-! ### The two host accesses at the port (R71) -/

@[simp] theorem portStep_read (a : HAddr) (x : Byte) (s : State) :
    portStep (.access false a x) s = hostReadStep a s := rfl

@[simp] theorem portStep_write (a : HAddr) (v : Byte) (s : State) :
    portStep (.access true a v) s = hostWriteStep a v s := rfl

end Sys2Proof.Machine

namespace Sys2Proof

open Sys2Proof.Machine

/-- Settles O2: the map's addresses are those the model names, HostRead has one lemma for each of them, and a host read
only answers. -/
theorem hostReadFollowsTheRegisterMap : Obligations.HostReadFollowsTheRegisterMap := by
  intro b
  refine ⟨fun i => ?digit, fun i => ?inten, hostRead_dpAddr b, hostRead_msAddr b, ?ready,
    fun a ha => hostRead_rsvd b ha, fun s a x => ?frame⟩
  case digit => rw [ofNat_eq_digitAddr, hostRead_digitAddr, zext32]
  case inten => rw [ofNat_eq_intenAddr, hostRead_intenAddr, zext32]
  case ready => exact (hostRead_readyAddr b).trans b.readReady_eq
  case frame => rw [portStep_read, hostReadStep_block]

/-- Settles O3: HostWrite has one lemma for each address the model names, each giving the update of one element, and a host
write answers no value. -/
theorem hostWriteFollowsTheRegisterMap : Obligations.HostWriteFollowsTheRegisterMap := by
  intro b v
  refine ⟨fun i => ?digit, fun i => ?inten, hostWrite_dpAddr b v, hostWrite_msAddr b v, hostWrite_readyAddr b v,
    fun a ha => hostWrite_rsvd b v ha, fun s a => ?answer⟩
  case digit => rw [ofNat_eq_digitAddr, hostWrite_digitAddr, Block.setDigit]
  case inten => rw [ofNat_eq_intenAddr, hostWrite_intenAddr, Block.setInten]
  case answer => rw [portStep_write, hostWriteStep_hRdata]

end Sys2Proof

/-! The stimulus word (spec/30_encoding.md): which words the decoder rejects (R76), the row of the operation list it finds
for the others (R74), the operation as the step of its ports (R71), and the segment pattern (R79). -/

namespace Sys2Proof

open Sys2Proof.Machine

/-! ### The decoder, kind by kind (R72) -/

theorem kind_cases (k : BitVec 2) : k = 0b00#2 ∨ k = 0b01#2 ∨ k = 0b10#2 ∨ k = 0b11#2 := by
  revert k; decide

section
variable {w : StimWord}

theorem decode_reservedKind (hk : fieldKind w = 0b11#2) : decode w = .error .reservedKind := if_pos hk

theorem decode_zeroFieldSet (hk : fieldKind w ≠ 0b11#2) (hz : fieldZero w ≠ 0b00#2) :
    decode w = .error .zeroFieldSet := by
  rw [decode, if_neg hk, if_pos hz]

theorem decode_read (hk : fieldKind w = 0b00#2) (hz : fieldZero w = 0b00#2) :
    decode w = if fieldData w = 0x00#8 then .ok (decodeRead (fieldSel w)) else .error .readWithData := by
  simp [decode, hk, hz]

theorem decode_write (hk : fieldKind w = 0b01#2) (hz : fieldZero w = 0b00#2) :
    decode w = .ok (decodeWrite (fieldSel w) (fieldData w)) := by
  simp [decode, hk, hz]

theorem decode_event (hk : fieldKind w = 0b10#2) (hz : fieldZero w = 0b00#2) :
    decode w = if fieldData w = 0x00#8 then decodeEvent (fieldSel w) else .error .eventWithData := by
  simp [decode, hk, hz]

end

/-- The event numbers 4 to 15 are reserved, and no other (R73). -/
theorem decodeEvent_error_iff (n : BitVec 4) : (∃ why, decodeEvent n = .error why) ↔ 4 ≤ n.toNat := by
  unfold decodeEvent
  split_ifs with h0 h1 h2 h3
  iterate 4 subst n; simp
  simp only [Except.error.injEq, exists_eq', true_iff]
  bv_omega

/-- All that a word that decodes can be: a read or an event without data, or a write, its zero field clear. -/
theorem decode_ok_cases {w : StimWord} {i : Instr} (h : decode w = .ok i) :
    fieldZero w = 0b00#2 ∧
      ((fieldKind w = 0b00#2 ∧ fieldData w = 0x00#8 ∧ decodeRead (fieldSel w) = i) ∨
        (fieldKind w = 0b01#2 ∧ decodeWrite (fieldSel w) (fieldData w) = i) ∨
        (fieldKind w = 0b10#2 ∧ fieldData w = 0x00#8 ∧ decodeEvent (fieldSel w) = .ok i)) := by
  by_cases hk3 : fieldKind w = 0b11#2
  · cases (decode_reservedKind hk3).symm.trans h
  by_cases hz : fieldZero w = 0b00#2
  case neg => cases (decode_zeroFieldSet hk3 hz).symm.trans h
  refine ⟨hz, ?_⟩
  rcases kind_cases (fieldKind w) with hk | hk | hk | hk
  · rw [decode_read hk hz] at h
    split at h
    · exact .inl ⟨hk, ‹_›, Except.ok.inj h⟩
    · cases h
  · exact .inr (.inl ⟨hk, Except.ok.inj ((decode_write hk hz).symm.trans h)⟩)
  · rw [decode_event hk hz] at h
    split at h
    · exact .inr (.inr ⟨hk, ‹_›, h⟩)
    · cases h
  · exact absurd hk hk3

/-- The decoder rejects a word iff one of R76's clauses holds of it, kind by kind. -/
theorem decode_error_iff (w : StimWord) : (∃ why, decode w = .error why) ↔ NotAStimulusWord w := by
  by_cases hk3 : fieldKind w = 0b11#2
  · simp [decode_reservedKind hk3, NotAStimulusWord, hk3]
  by_cases hz : fieldZero w = 0b00#2
  case neg => simp [decode_zeroFieldSet hk3 hz, NotAStimulusWord, hz]
  rcases kind_cases (fieldKind w) with hk | hk | hk | hk
  · rw [decode_read hk hz]
    by_cases hd : fieldData w = 0x00#8 <;> simp [NotAStimulusWord, hk, hz, hd]
  · rw [decode_write hk hz]
    simp [NotAStimulusWord, hk, hz]
  · rw [decode_event hk hz]
    by_cases hd : fieldData w = 0x00#8
    · rw [if_pos hd, decodeEvent_error_iff]
      simp [NotAStimulusWord, hk, hz, hd]
    · simp [NotAStimulusWord, hk, hd]
  · exact absurd hk hk3

/-! ### The word of the operation decoded (R75) -/

theorem digitAddr_regIndex {a : HAddr} (h : a < 0x4#4) : digitAddr (regIndex a) = a := by
  revert a; decide

theorem intenAddr_regIndex {a : HAddr} (h4 : ¬ a < 0x4#4) (h8 : a < 0x8#4) : intenAddr (regIndex a) = a := by
  revert a; decide

/-- An address that is none of the map's registers, nor `0xB`, is at `0xC` or above (R51). -/
theorem rsvdHighAddr_of_ne {a : HAddr} (h8 : ¬ a < 0x8#4) (hdp : a ≠ 0x8#4) (hms : a ≠ 0x9#4) (hrdy : a ≠ 0xA#4)
    (hB : a ≠ 0xB#4) : rsvdHighAddr a = true := by
  revert a; decide

theorem decodeRead_spec (a : HAddr) : encode (decodeRead a) = encodeRead a ∧ (decodeRead a).wf = true := by
  revert a; decide

theorem decodeWrite_spec (a : HAddr) (d : Byte) :
    encode (decodeWrite a d) = encodeWrite a d ∧ (decodeWrite a d).wf = true := by
  unfold decodeWrite
  split_ifs with h4 h8 hdp hms hrdy hB
  · exact ⟨congrArg (encodeWrite · d) (digitAddr_regIndex h4), rfl⟩
  · exact ⟨congrArg (encodeWrite · d) (intenAddr_regIndex h4 h8), rfl⟩
  iterate 4 subst a; exact ⟨rfl, rfl⟩
  exact ⟨rfl, rsvdHighAddr_of_ne h8 hdp hms hrdy hB⟩

theorem decodeEvent_spec {n : BitVec 4} {i : Instr} (h : decodeEvent n = .ok i) :
    encode i = encodeEvent n ∧ i.wf = true := by
  unfold decodeEvent at h
  split_ifs at h
  all_goals
    subst n
    cases h
    exact ⟨rfl, rfl⟩

/-- The decoder reads every bit of a word: the operation it finds is well formed and has that word. -/
theorem encode_of_decode {w : StimWord} {i : Instr} (h : decode w = .ok i) : encode i = w ∧ i.wf = true := by
  have hw := fields_append w
  obtain ⟨hz, ⟨hk, hd, rfl⟩ | ⟨hk, rfl⟩ | ⟨hk, hd, hev⟩⟩ := decode_ok_cases h
  · rw [hk, hz, hd] at hw
    exact (decodeRead_spec (fieldSel w)).imp_left (·.trans hw)
  · rw [hk, hz] at hw
    exact (decodeWrite_spec (fieldSel w) (fieldData w)).imp_left (·.trans hw)
  · rw [hk, hz, hd] at hw
    exact (decodeEvent_spec hev).imp_left (·.trans hw)

/-! ### The rows of the operation list (R74) -/

/-- The word of a well-formed operation is of the operation's row. -/
theorem row_covers_encode (i : Instr) : Laws.EncodesItsRow.Statement i := by
  cases i with
  | rdDigit i => exact Laws.EncodesItsRow.rdDigit i
  | rdInten i => exact Laws.EncodesItsRow.rdInten i
  | rdDp => exact Laws.EncodesItsRow.rdDp
  | rdMs => exact Laws.EncodesItsRow.rdMs
  | rdRdy => exact Laws.EncodesItsRow.rdRdy
  | rdRsvdB => exact Laws.EncodesItsRow.rdRsvdB
  | rdRsvd a => exact Laws.EncodesItsRow.rdRsvd a
  | wrDigit i d => exact Laws.EncodesItsRow.wrDigit i d
  | wrInten i d => exact Laws.EncodesItsRow.wrInten i d
  | wrDp d => exact Laws.EncodesItsRow.wrDp d
  | clrMs x => exact Laws.EncodesItsRow.clrMs x
  | clrRdy x => exact Laws.EncodesItsRow.clrRdy x
  | wrRsvdB x => exact Laws.EncodesItsRow.wrRsvdB x
  | wrRsvd a x => exact Laws.EncodesItsRow.wrRsvd a x
  | reset => exact Laws.EncodesItsRow.reset
  | tickMux => exact Laws.EncodesItsRow.tickMux
  | tickMs => exact Laws.EncodesItsRow.tickMs
  | edge => exact Laws.EncodesItsRow.edge

theorem row_covers_of_decode {w : StimWord} {i : Instr} (h : decode w = .ok i) : i.row.covers w = true := by
  obtain ⟨hw, hwf⟩ := encode_of_decode h
  exact hw ▸ row_covers_encode i hwf

theorem OpRow.covers_iff {r : OpRow} {w : StimWord} : r.covers w = true ↔ w &&& r.mask = r.pattern := by
  simp [OpRow.covers]

/-- Two rows that share a word agree on the bits that both of them fix. -/
theorem OpRow.pattern_and_mask_comm {r q : OpRow} {w : StimWord} (hr : r.covers w = true) (hq : q.covers w = true) :
    r.pattern &&& q.mask = q.pattern &&& r.mask := by
  rw [← OpRow.covers_iff.mp hr, ← OpRow.covers_iff.mp hq, BitVec.and_assoc, BitVec.and_assoc,
    BitVec.and_comm r.mask]

/-- Any two rows of the list differ in a bit that both of them fix. -/
theorem opcodeTable_apart : ∀ j k : Fin 18,
    (opcodeTable[j]).pattern &&& (opcodeTable[k]).mask = (opcodeTable[k]).pattern &&& (opcodeTable[j]).mask →
      j = k := by
  decide

theorem opcodeTable_disjoint {w : StimWord} {j k : Fin 18} (hj : (opcodeTable[j]).covers w = true)
    (hk : (opcodeTable[k]).covers w = true) : j = k :=
  opcodeTable_apart j k (OpRow.pattern_and_mask_comm hj hk)

/-- A field that a row's mask keeps whole has the value of the row's pattern. -/
theorem OpRow.extractLsb'_of_covers {r : OpRow} {w : StimWord} {start len : Nat} (h : r.covers w = true)
    (hmask : r.mask.extractLsb' start len = BitVec.allOnes len) :
    w.extractLsb' start len = r.pattern.extractLsb' start len := by
  rw [← OpRow.covers_iff.mp h, BitVec.extractLsb'_and, hmask, BitVec.and_allOnes]

/-- The bits that R76 reads are fixed by every row: the kind and the zero field by all, the data by the rows of reads and
of events, and the event number by the rows of events. -/
theorem opcodeTable_fixes : ∀ k : Fin 18,
    (fieldKind (opcodeTable[k]).mask = BitVec.allOnes 2 ∧ fieldKind (opcodeTable[k]).pattern ≠ 0b11#2) ∧
    (fieldZero (opcodeTable[k]).mask = BitVec.allOnes 2 ∧ fieldZero (opcodeTable[k]).pattern = 0b00#2) ∧
    (fieldKind (opcodeTable[k]).pattern ≠ 0b01#2 →
      fieldData (opcodeTable[k]).mask = BitVec.allOnes 8 ∧ fieldData (opcodeTable[k]).pattern = 0x00#8) ∧
    (fieldKind (opcodeTable[k]).pattern = 0b10#2 →
      fieldSel (opcodeTable[k]).mask = BitVec.allOnes 4 ∧ (fieldSel (opcodeTable[k]).pattern).toNat < 4) := by
  decide

/-- No clause of R76 holds of a word of a row. -/
theorem not_notAStimulusWord_of_covers {w : StimWord} {k : Fin 18} (h : (opcodeTable[k]).covers w = true) :
    ¬ NotAStimulusWord w := by
  obtain ⟨⟨hkm, hkp⟩, ⟨hzm, hzp⟩, hdata, hsel⟩ := opcodeTable_fixes k
  have hkind : fieldKind w = fieldKind (opcodeTable[k]).pattern := OpRow.extractLsb'_of_covers h hkm
  rw [← hkind] at hkp hdata hsel
  have hdata0 : fieldKind w ≠ 0b01#2 → fieldData w = 0x00#8 := fun hne =>
    (OpRow.extractLsb'_of_covers h (hdata hne).1).trans (hdata hne).2
  rintro (h3 | hz | ⟨h0, hd⟩ | ⟨h2, hd⟩ | ⟨h2, hs⟩)
  · exact hkp h3
  · exact hz ((OpRow.extractLsb'_of_covers h hzm).trans hzp)
  · exact hd (hdata0 (by simp [h0]))
  · exact hd (hdata0 (by simp [h2]))
  · obtain ⟨hsm, hlt⟩ := hsel h2
    have hsw : fieldSel w = fieldSel (opcodeTable[k]).pattern := OpRow.extractLsb'_of_covers h hsm
    rw [hsw] at hs
    omega

end Sys2Proof

namespace Sys2Proof.Machine

/-! ### The accesses of the reserved addresses (R58) -/

theorem hostReadStep_rsvd {a : HAddr} (s : State) (h : 0xB ≤ a.toNat) : hostReadStep a s = rsvdReadStep s := by
  rw [hostReadStep, hostRead_rsvd _ h, rsvdReadStep]

theorem hostWriteStep_rsvd {a : HAddr} (v : Byte) (s : State) (h : 0xB ≤ a.toNat) :
    hostWriteStep a v s = rsvdWriteStep s := by
  rw [hostWriteStep, hostWrite_rsvd _ _ h]
  rfl

theorem le_toNat_of_rsvdHighAddr {a : HAddr} (h : rsvdHighAddr a = true) : 0xB ≤ a.toNat := by
  revert a; decide

/-- An operation is the step of its ports; a reserved access is a HostRead or HostWrite of a reserved address (R71). -/
theorem exec_eq_portStep {i : Instr} (s : State) (h : i.wf = true) : exec i s = .next (portStep i.port s) := by
  cases i with
  | rdRsvd a =>
    rw [Instr.port, portStep_read, hostReadStep_rsvd s (le_toNat_of_rsvdHighAddr h)]
    rfl
  | wrRsvd a x =>
    rw [Instr.port, portStep_write, hostWriteStep_rsvd x s (le_toNat_of_rsvdHighAddr h)]
    rfl
  | _ => rfl

/-! ### The segment pattern, bit by bit (R79) -/

theorem segPattern_eq_or (dpflag : Bool) (g : Fin 17) :
    segPattern dpflag g = ((BitVec.ofBool dpflag).setWidth 8 <<< 7) ||| (Config.glyph g).setWidth 8 := by
  rw [segPattern, BitVec.append_def, BitVec.shiftLeftZeroExtend_eq]
  rfl

theorem segPattern_getLsbD_point (dpflag : Bool) (g : Fin 17) : (segPattern dpflag g).getLsbD 7 = dpflag := by
  rw [segPattern, BitVec.getLsbD_append, if_neg (lt_irrefl 7)]
  simp

theorem segPattern_getLsbD_glyph (dpflag : Bool) (g : Fin 17) {k : Nat} (h : k < 7) :
    (segPattern dpflag g).getLsbD k = (Config.glyph g).getLsbD k := by
  rw [segPattern, BitVec.getLsbD_append, if_pos h]

end Sys2Proof.Machine

namespace Sys2Proof

open Sys2Proof.Machine

/-- Settles O33: the five clauses of R76 against the decoder, kind by kind. -/
theorem decodeRejectsExactlyTheNonStimuli : Obligations.DecodeRejectsExactlyTheNonStimuli :=
  decode_error_iff

/-- Settles O34: a word's operation has that word, which is of the operation's row; a word of a row is a stimulus, and its
operation's row is that row, for no two rows share a word. -/
theorem decodeAgreesWithTheOpcodeTable : Obligations.DecodeAgreesWithTheOpcodeTable := by
  refine ⟨fun w k => ⟨?_, fun hcov => ?_⟩, fun w j k => opcodeTable_disjoint, fun i => ?_⟩
  · rintro ⟨i, hi, rfl⟩
    exact row_covers_of_decode hi
  · cases hdec : decode w with
    | error why => exact absurd ((decode_error_iff w).mp ⟨why, hdec⟩) (not_notAStimulusWord_of_covers hcov)
    | ok i => exact ⟨i, rfl, opcodeTable_disjoint (row_covers_of_decode hdec) hcov⟩
  · cases i <;> rfl

/-- Settles O4: every operation's arm against its ports, and what the port's two accesses answer and leave. -/
theorem operationIsTheStepOfItsPorts : Obligations.OperationIsTheStepOfItsPorts := by
  refine ⟨fun i s hwf => exec_eq_portStep s hwf, fun a v s => ?read, fun a v s => ?write⟩
  case read => rw [portStep_read, hostReadStep_hRdata]
  case write => rw [portStep_write, hostWriteStep_block, hostWriteStep_hRdata]; exact ⟨rfl, rfl⟩

/-- Settles O19: the appended point and glyph as shift and OR, and bit by bit. -/
theorem segPatternIsPointAboveGlyph : Obligations.SegPatternIsPointAboveGlyph := fun dpflag g =>
  ⟨segPattern_eq_or dpflag g, segPattern_getLsbD_point dpflag g, fun _ hk => segPattern_getLsbD_glyph dpflag g hk⟩

end Sys2Proof

/-! The display multiplexer (spec/40_display_mux.md): RENDER (R101, R102) and the three branches of TICK_MUX (R103). -/

namespace Sys2Proof.Machine

/-! ### RENDER (R101) -/

theorem render_of_code {code : Byte} {g : Fin 17} (dpflag : Bool) (b : Block) (h : g.val = code.toNat) :
    render code dpflag b = b.setSeg (segPattern dpflag g) := by
  have hlt : code.toNat < 17 := h ▸ g.isLt
  have hg : (⟨code.toNat, hlt⟩ : Fin 17) = g := Fin.ext h.symm
  rw [render, renderedSeg_of_lt dpflag b.seg hlt, hg]

theorem render_of_no_code {code : Byte} (dpflag : Bool) (b : Block) (h : 16 < code.toNat) :
    render code dpflag b = b := by
  rw [render, renderedSeg_of_ge dpflag b.seg (Nat.not_lt.mpr h)]
  rfl

/-- The outputs after RENDER in one formula: the pattern in R79's form where the code has a glyph, else the old outputs. -/
theorem renderedSeg_eq_dite (code : Byte) (dpflag : Bool) (old : Byte) :
    renderedSeg code dpflag old =
      if h : code.toNat < 17 then
        ((BitVec.ofBool dpflag).setWidth 8 <<< 7) ||| (Config.glyph ⟨code.toNat, h⟩).setWidth 8
      else old := by
  split
  case isTrue h => rw [renderedSeg_of_lt dpflag old h, segPattern_eq_or]
  case isFalse h => exact renderedSeg_of_ge dpflag old h

/-! ### TICK_MUX, branch by branch (R103) -/

theorem muxTick_of_deassert {b : Block} (hn : b.duty.toNat + 1 = clampIntens b.intens[b.cur]) :
    muxTick b = (b.setDuty (b.duty.toNat + 1)).setDig b.cur false :=
  if_pos hn

theorem muxTick_of_advance {b : Block} (hn : b.duty.toNat + 1 ≠ clampIntens b.intens[b.cur])
    (hwrap : 100 < b.duty.toNat + 1) : muxTick b = advance (b.cur + 1) b :=
  (if_neg hn).trans (if_pos hwrap)

theorem muxTick_of_count {b : Block} (hn : b.duty.toNat + 1 ≠ clampIntens b.intens[b.cur])
    (hle : b.duty.toNat + 1 ≤ 100) : muxTick b = b.setDuty (b.duty.toNat + 1) :=
  (if_neg hn).trans (if_neg (Nat.not_lt.mpr hle))

/-- TICK_MUX completes and leaves `muxTick` in the block: what each branch leaves is said of `muxTick` alone. -/
theorem exists_exec_tickMux_of_muxTick_eq {s : State} {b : Block} (h : muxTick s.block = b) :
    ∃ t, exec .tickMux s = .next t ∧ t.block = b :=
  ⟨_, exec_tickMux s, h⟩

end Sys2Proof.Machine

namespace Sys2Proof

open Sys2Proof.Machine

/-- Settles O20: the glyph of an in-range code is the pattern's, in R79's form, and a code above 16 has none. -/
theorem renderDrivesOrKeepsTheSegments : Obligations.RenderDrivesOrKeepsTheSegments := by
  refine fun code dpflag b => ⟨fun g hg => ?drives, render_of_no_code dpflag b⟩
  case drives => rw [render_of_code dpflag b hg, segPattern_eq_or, Block.setSeg]

/-- Settles O21: one equation of `muxTick` for each branch, and for the advance the next digit's index and the rendered
outputs in R79's form. -/
theorem tickMuxTakesOneOfThreeBranches : Obligations.TickMuxTakesOneOfThreeBranches := by
  refine ⟨by decide, ?_⟩
  rintro s n d1 c rfl rfl hc
  have hnext : s.block.cur + 1 = c := Fin.ext ((succ_digitIx_val _).trans hc.symm)
  refine ⟨fun hn => ?deassert, fun hn hwrap => ?advance, fun hn hle => ?count⟩ <;>
    apply exists_exec_tickMux_of_muxTick_eq
  case deassert => exact muxTick_of_deassert hn
  case advance =>
    rw [muxTick_of_advance hn hwrap, hnext, advance_eq, renderedSeg_eq_dite]
    rfl
  case count => exact muxTick_of_count hn hle

end Sys2Proof

/-! The millisecond timer (spec/41_ms_timer.md): what TICK_MS, RD_MS and CLR_MS do (R120 to R122), and the count that
`ms` keeps over a trace. -/

namespace Sys2Proof

/-! ### The word of a host write (R72) -/

/-- The fields of `WR a, d` OR-ed in at their places. -/
theorem encodeWrite_eq_or (a : HAddr) (d : Byte) :
    encodeWrite a d = 0x4000#16 ||| (a.setWidth 16 <<< 8) ||| d.setWidth 16 := by
  have hsel : ∀ a : HAddr, ((0b01#2 ++ 0b00#2 ++ a : Byte).setWidth 16 <<< 8) =
      0x4000#16 ||| (a.setWidth 16 <<< 8) := by decide
  rw [encodeWrite, BitVec.append_def, BitVec.shiftLeftZeroExtend_eq, hsel, BitVec.setWidth'_eq]

theorem decode_encodeWrite (a : HAddr) (d : Byte) : decode (encodeWrite a d) = .ok (decodeWrite a d) := by
  obtain ⟨hkind, hzero, hsel, hdata⟩ := encodeWrite_fields a d
  rw [decode_write hkind hzero, hsel, hdata]

end Sys2Proof

namespace Sys2Proof.Machine

/-! ### The counter over a trace -/

theorem msTick_eq (b : Block) : msTick b = { b with ms := BitVec.ofNat 32 ((b.ms.toNat + 1) % 2 ^ 32) } := by
  have hms : b.ms + 1 = BitVec.ofNat 32 ((b.ms.toNat + 1) % 2 ^ 32) := by bv_omega
  rw [msTick, Block.setMs, hms]

/-- An operation other than CLR_MS and RESET adds to `ms` its own number of TICK_MS, one or none (R120, R31). -/
theorem blockAfter_ms_eq_add {i : Instr} (b : Block) (h : i = .tickMs ∨ writesMs i = false) :
    (blockAfter i b).ms = b.ms + BitVec.ofNat 32 (if i == .tickMs then 1 else 0) := by
  rcases h with rfl | h
  · rfl
  · have hne : i ≠ .tickMs := by
      rintro rfl
      cases h
    rw [blockAfter_ms b h, if_neg (by simpa using hne), BitVec.add_zero]

/-- A trace without CLR_MS and RESET completes and adds to `ms` the number of its TICK_MS, whatever is interleaved. -/
theorem exists_runTrace_ms_eq_add {is : List Instr} (s : State) (h : ∀ i ∈ is, i = .tickMs ∨ writesMs i = false) :
    ∃ t, runTrace is s = .next t ∧ t.block.ms = s.block.ms + BitVec.ofNat 32 (is.count .tickMs) := by
  induction is generalizing s with
  | nil => exact ⟨s, rfl, (BitVec.add_zero _).symm⟩
  | cons i is ih =>
    obtain ⟨hi, his⟩ := List.forall_mem_cons.mp h
    obtain ⟨t, hrun, hms⟩ := ih ((s.withBlock (blockAfter i s.block)).answer (rdataAfter i s.block s.hRdata)) his
    refine ⟨t, (runTrace_cons_of_next is (exec_eq i s)).trans hrun, ?_⟩
    rw [hms, State.answer_block, State.withBlock_block, blockAfter_ms_eq_add s.block hi, List.count_cons,
      BitVec.add_assoc, ← BitVec.ofNat_add, Nat.add_comm]

/-- Once an operation has left `ms` at 0, the trace after it leaves there the number of its TICK_MS. -/
theorem exists_runTrace_ms_eq_count {clear : Instr} {is : List Instr} (s : State)
    (hclear : (blockAfter clear s.block).ms = 0) (h : ∀ i ∈ is, i = .tickMs ∨ writesMs i = false) :
    ∃ t, runTrace (clear :: is) s = .next t ∧ t.block.ms = BitVec.ofNat 32 (is.count .tickMs) := by
  obtain ⟨t, hrun, hms⟩ := exists_runTrace_ms_eq_add
    ((s.withBlock (blockAfter clear s.block)).answer (rdataAfter clear s.block s.hRdata)) h
  refine ⟨t, (runTrace_cons_of_next is (exec_eq clear s)).trans hrun, ?_⟩
  rw [hms, State.answer_block, State.withBlock_block, hclear]
  exact BitVec.zero_add _

/-- Every operation but CLR_MS and RESET is TICK_MS or leaves `ms` alone. -/
theorem eq_tickMs_or_not_writesMs {i : Instr} (hrst : i ≠ .reset) (hclr : ∀ y : Byte, i ≠ .clrMs y) :
    i = .tickMs ∨ writesMs i = false := by
  cases i with
  | reset => exact absurd rfl hrst
  | clrMs y => exact absurd rfl (hclr y)
  | tickMs => exact .inl rfl
  | _ => exact .inr rfl

/-- RD_MS answers with the counter and leaves the block (R121). -/
theorem exists_exec_rdMs (s : State) :
    ∃ t, exec .rdMs s = .next t ∧ t.hRdata = some s.block.ms ∧ t.block = s.block :=
  ⟨_, exec_eq .rdMs s, rfl, rfl⟩

end Sys2Proof.Machine

namespace Sys2Proof

open Sys2Proof.Machine

/-- Settles O8: RESET and CLR_MS leave 0, the trace after them adds its ticks, and RD_MS answers with the sum. -/
theorem rdMsReturnsTheTickCount : Obligations.RdMsReturnsTheTickCount := by
  refine ⟨by decide, exists_exec_rdMs, fun x clear is s hclear his => ?count⟩
  have hzero : (blockAfter clear s.block).ms = 0 := by
    rcases hclear with rfl | rfl
    · exact Block.reset_ms
    · exact Block.setMs_ms s.block 0
  have hticks : ∀ j ∈ is, j = .tickMs ∨ writesMs j = false := fun j hj =>
    have ⟨hrst, hclr⟩ := his j hj
    eq_tickMs_or_not_writesMs hrst hclr
  obtain ⟨t, hrun, hms⟩ := exists_runTrace_ms_eq_count s hzero hticks
  obtain ⟨u, hread, hans, -⟩ := exists_exec_rdMs t
  exact ⟨t, u, hrun, hread, hans.trans (congrArg some hms)⟩

/-- Settles O14: CLR_MS's word and its effect, and the count of the ticks of `MS k` from there. -/
theorem clrMsRestartsTheCount : Obligations.ClrMsRestartsTheCount := by
  refine fun x => ⟨?word, fun s => ⟨_, exec_eq (.clrMs x) s, rfl, rfl⟩, fun k s => ?count⟩
  case word => exact (congrArg decode (encodeWrite_eq_or msAddr x)).symm.trans (decode_encodeWrite msAddr x)
  case count =>
    have hticks : ∀ i ∈ pseudoMs k, i = .tickMs ∨ writesMs i = false := fun i hi =>
      .inl (List.eq_of_mem_replicate hi)
    have hcount : (pseudoMs k).count .tickMs = k := List.count_replicate_self
    have hrun := exists_runTrace_ms_eq_count (clear := .clrMs x) s (Block.setMs_ms s.block 0) hticks
    rwa [hcount] at hrun

/-- Settles O17: the tick's sum in 32 bits, and its frame. -/
theorem tickMsIncrementsTheCounter : Obligations.TickMsIncrementsTheCounter :=
  ⟨by decide, fun s => ⟨_, exec_tickMs s, msTick_eq s.block⟩⟩

end Sys2Proof

/-! Edge capture (spec/42_edge_capture.md): what EDGE, RD_RDY and CLR_RDY do (R130 to R132). -/

namespace Sys2Proof.Machine

/-- A clear wipes a set just before it: the flag keeps no count (R132, hazard H5). -/
@[simp] theorem Block.clearReady_setReady (b : Block) : b.setReady.clearReady = b.clearReady := rfl

/-- EDGE completes, sets the flag in the block and leaves the host port (R130). -/
theorem exec_edge (s : State) : exec .edge s = .next (s.withBlock s.block.setReady) := rfl

/-- CLR_RDY clears the flag and leaves the rest of the block, whatever its data, and answers no value (R132). -/
theorem exists_exec_clrRdy (x : Byte) (s : State) :
    ∃ t, exec (.clrRdy x) s = .next t ∧ t.block = s.block.clearReady ∧ t.hRdata = none :=
  ⟨_, exec_eq (.clrRdy x) s, rfl, rfl⟩

/-- EDGE and then CLR_RDY leave the block as CLR_RDY alone does. -/
theorem exists_runTrace_edge_clrRdy (x : Byte) (s : State) :
    ∃ t, runTrace [.edge, .clrRdy x] s = .next t ∧ t.block = s.block.clearReady := by
  obtain ⟨t, hclr, hblock, -⟩ := exists_exec_clrRdy x (s.withBlock s.block.setReady)
  have hrun : runTrace [.edge, .clrRdy x] s = .next t := by
    rw [runTrace_cons_of_next _ (exec_edge s), runTrace_cons_of_next _ hclr, runTrace_nil]
  exact ⟨t, hrun, by rw [hblock, State.withBlock_block, Block.clearReady_setReady]⟩

end Sys2Proof.Machine

namespace Sys2Proof

open Sys2Proof.Machine

/-- Settles O9: RD_RDY answers with the flag's read, which is 0 or 1 in 32 bits, and leaves the block. -/
theorem rdRdyReturnsTheFlag : Obligations.RdRdyReturnsTheFlag :=
  ⟨by decide, fun s => ⟨_, exec_eq .rdRdy s, congrArg some s.block.readReady_eq, rfl⟩⟩

/-- Settles O15: CLR_RDY's word, its effect from every state, and its effect right after an EDGE. -/
theorem clrRdyClearsTheFlag : Obligations.ClrRdyClearsTheFlag := by
  refine fun x => ⟨?word, exists_exec_clrRdy x, exists_runTrace_edge_clrRdy x⟩
  case word => exact (congrArg decode (encodeWrite_eq_or readyAddr x)).symm.trans (decode_encodeWrite readyAddr x)

/-- Settles O18: EDGE's word, and the flag set with the rest of the block as it was. -/
theorem edgeSetsTheFlag : Obligations.EdgeSetsTheFlag :=
  ⟨by decide, fun s => ⟨_, exec_edge s, rfl⟩⟩

end Sys2Proof

/-! Host access to the Display Buffer and to the reserved addresses (spec/43_host_access.md): the words of these
operations, the value each read answers (R140 to R142, R146) and the one element each write stores to (R143 to R145, R147). -/

namespace Sys2Proof

open Sys2Proof.Machine

/-! ### The decoder at each address of the map (R51, R74) -/

@[simp] theorem decodeRead_digitAddr (i : DigitIx) : decodeRead (digitAddr i) = .rdDigit i := by
  simp [decodeRead, digitAddr_lt]

@[simp] theorem decodeRead_intenAddr (i : DigitIx) : decodeRead (intenAddr i) = .rdInten i := by
  simp [decodeRead, intenAddr_range]

@[simp] theorem decodeWrite_digitAddr (i : DigitIx) (d : Byte) : decodeWrite (digitAddr i) d = .wrDigit i d := by
  simp [decodeWrite, digitAddr_lt]

@[simp] theorem decodeWrite_intenAddr (i : DigitIx) (d : Byte) : decodeWrite (intenAddr i) d = .wrInten i d := by
  simp [decodeWrite, intenAddr_range]

/-- An address of the second reserved pattern is that of no register, nor `0xB` (R51). -/
theorem ne_of_rsvdHighAddr {a : HAddr} (h : rsvdHighAddr a = true) :
    ¬ a < 0x4#4 ∧ ¬ a < 0x8#4 ∧ a ≠ 0x8#4 ∧ a ≠ 0x9#4 ∧ a ≠ 0xA#4 ∧ a ≠ 0xB#4 := by
  revert a; decide

theorem decodeRead_rsvd {a : HAddr} (h : rsvdHighAddr a = true) : decodeRead a = .rdRsvd a := by
  obtain ⟨h4, h8, hdp, hms, hrdy, hB⟩ := ne_of_rsvdHighAddr h
  simp [decodeRead, h4, h8, hdp, hms, hrdy, hB]

theorem decodeWrite_rsvd {a : HAddr} (d : Byte) (h : rsvdHighAddr a = true) : decodeWrite a d = .wrRsvd a d := by
  obtain ⟨h4, h8, hdp, hms, hrdy, hB⟩ := ne_of_rsvdHighAddr h
  simp [decodeWrite, h4, h8, hdp, hms, hrdy, hB]

/-! ### An operation is what its own word decodes to -/

theorem decode_encodeRead (a : HAddr) : decode (encodeRead a) = .ok (decodeRead a) := by
  obtain ⟨hkind, hzero, hsel, hdata⟩ := encodeRead_fields a
  rw [decode_read hkind hzero, hsel, if_pos hdata]

theorem decode_encodeEvent (n : BitVec 4) : decode (encodeEvent n) = decodeEvent n := by
  obtain ⟨hkind, hzero, hsel, hdata⟩ := encodeEvent_fields n
  rw [decode_event hkind hzero, hsel, if_pos hdata]

theorem decode_encode {i : Instr} (h : i.wf = true) : decode (encode i) = .ok i := by
  cases i with
  | rdDigit i => rw [encode, decode_encodeRead, decodeRead_digitAddr]
  | rdInten i => rw [encode, decode_encodeRead, decodeRead_intenAddr]
  | rdRsvd a => rw [encode, decode_encodeRead, decodeRead_rsvd h]
  | wrDigit i d => rw [encode, decode_encodeWrite, decodeWrite_digitAddr]
  | wrInten i d => rw [encode, decode_encodeWrite, decodeWrite_intenAddr]
  | wrRsvd a x => rw [encode, decode_encodeWrite, decodeWrite_rsvd x h]
  | rdDp | rdMs | rdRdy | rdRsvdB => exact decode_encodeRead _
  | wrDp d | clrMs d | clrRdy d | wrRsvdB d => exact decode_encodeWrite _ d
  | reset | tickMux | tickMs | edge => exact decode_encodeEvent _

/-- The form the statements take: an operation's word written out as a number. -/
theorem decode_eq_ok_of_encode_eq {i : Instr} {w : StimWord} (h : i.wf = true) (hw : encode i = w) :
    decode w = .ok i :=
  hw ▸ decode_encode h

/-! ### The words as fields OR-ed in at their places (R72) -/

theorem encodeRead_eq_or (a : HAddr) : encodeRead a = 0x0000#16 ||| (a.setWidth 16 <<< 8) := by
  revert a; decide

/-- A digit register's index stands in `W[9:8]` (R75), above the write bit. -/
theorem digitAddr_field (i : DigitIx) :
    0x4000#16 ||| ((digitAddr i).setWidth 16 <<< 8) = 0x4000#16 ||| (BitVec.ofNat 16 i.val <<< 8) := by
  revert i; decide

/-- An intensity register's index stands in `W[9:8]` (R75), above the write bit and the bit of the bank at `0x4`. -/
theorem intenAddr_field (i : DigitIx) :
    0x4000#16 ||| ((intenAddr i).setWidth 16 <<< 8) = 0x4400#16 ||| (BitVec.ofNat 16 i.val <<< 8) := by
  revert i; decide

theorem encode_rdDigit (i : DigitIx) : encode (.rdDigit i) = 0x0000#16 ||| (BitVec.ofNat 16 i.val <<< 8) := by
  revert i; decide

theorem encode_rdInten (i : DigitIx) : encode (.rdInten i) = 0x0400#16 ||| (BitVec.ofNat 16 i.val <<< 8) := by
  revert i; decide

theorem encode_wrDigit (i : DigitIx) (d : Byte) :
    encode (.wrDigit i d) = 0x4000#16 ||| (BitVec.ofNat 16 i.val <<< 8) ||| d.setWidth 16 := by
  rw [encode, encodeWrite_eq_or, digitAddr_field]

theorem encode_wrInten (i : DigitIx) (d : Byte) :
    encode (.wrInten i d) = 0x4400#16 ||| (BitVec.ofNat 16 i.val <<< 8) ||| d.setWidth 16 := by
  rw [encode, encodeWrite_eq_or, intenAddr_field]

end Sys2Proof

namespace Sys2Proof.Machine

/-! ### A register reads back what was written (R140, R141) -/

@[simp] theorem Block.setDigit_getElem_self (b : Block) (i : DigitIx) (d : Byte) : (b.setDigit i d).digits[i] = d := by
  rw [Block.setDigit_digits, getElem_set_digitIx, if_pos rfl]

@[simp] theorem Block.setInten_getElem_self (b : Block) (i : DigitIx) (d : Byte) : (b.setInten i d).intens[i] = d := by
  rw [Block.setInten_intens, getElem_set_digitIx, if_pos rfl]

theorem hRdata_rdDigit_after_wrDigit {i : DigitIx} {d : Byte} {s t u : State} (hwr : exec (.wrDigit i d) s = .next t)
    (hrd : exec (.rdDigit i) t = .next u) : u.hRdata = some (zext32 d) := by
  rw [hRdata_of_exec hrd, block_of_exec hwr, rdataAfter, blockAfter, Block.setDigit_getElem_self]

theorem hRdata_rdInten_after_wrInten {i : DigitIx} {d : Byte} {s t u : State} (hwr : exec (.wrInten i d) s = .next t)
    (hrd : exec (.rdInten i) t = .next u) : u.hRdata = some (zext32 d) := by
  rw [hRdata_of_exec hrd, block_of_exec hwr, rdataAfter, blockAfter, Block.setInten_getElem_self]

/-! ### Which digit's point a position lights (R106, R145) -/

theorem dpAt_iff (p : Byte) (c : DigitIx) :
    dpAt p c = true ↔ 1 ≤ p.toNat ∧ p.toNat ≤ 4 ∧ c.val = p.toNat - 1 := by
  have hc : c.val < 4 := c.isLt
  rw [dpAt, beq_iff_eq]
  omega

end Sys2Proof.Machine

namespace Sys2Proof

open Sys2Proof.Machine

/-- Settles O5: RD_DIGIT's word, the register it answers with, and the read-back of a WR_DIGIT. -/
theorem rdDigitReturnsTheRegister : Obligations.RdDigitReturnsTheRegister := fun i =>
  ⟨decode_eq_ok_of_encode_eq rfl (encode_rdDigit i), fun s => ⟨_, exec_eq (.rdDigit i) s, rfl, rfl⟩,
    fun _ _ _ _ hwr hrd => hRdata_rdDigit_after_wrDigit hwr hrd⟩

/-- Settles O6: RD_INTEN's word, the register it answers with, not clamped, and the read-back of a WR_INTEN. -/
theorem rdIntenReturnsTheRegister : Obligations.RdIntenReturnsTheRegister := fun i =>
  ⟨decode_eq_ok_of_encode_eq rfl (encode_rdInten i), fun s => ⟨_, exec_eq (.rdInten i) s, rfl, rfl⟩,
    fun _ _ _ _ hwr hrd => hRdata_rdInten_after_wrInten hwr hrd⟩

/-- Settles O7: RD_DP's word, and the stored position as its answer. -/
theorem rdDpReturnsTheRegister : Obligations.RdDpReturnsTheRegister :=
  ⟨by decide, fun s => ⟨_, exec_eq .rdDp s, rfl, rfl⟩⟩

/-- Settles O10: the words of both reserved read patterns, and the answer 0 of each. -/
theorem rdRsvdReturnsZero : Obligations.RdRsvdReturnsZero := by
  refine ⟨by decide, fun s => ⟨_, exec_eq .rdRsvdB s, rfl, rfl⟩,
    fun a ha => ⟨?word, fun s => ⟨_, exec_eq (.rdRsvd a) s, rfl, rfl⟩⟩⟩
  case word => exact decode_eq_ok_of_encode_eq (decide_eq_true ha) (encodeRead_eq_or a)

/-- Settles O11: WR_DIGIT's word, and the one register it stores to. -/
theorem wrDigitStoresTheData : Obligations.WrDigitStoresTheData := fun i d =>
  ⟨decode_eq_ok_of_encode_eq rfl (encode_wrDigit i d), fun s => ⟨_, exec_eq (.wrDigit i d) s, rfl, rfl⟩⟩

/-- Settles O12: WR_INTEN's word, and the one register it stores to; the digit-select outputs are in its frame. -/
theorem wrIntenStoresTheData : Obligations.WrIntenStoresTheData := fun i d =>
  ⟨decode_eq_ok_of_encode_eq rfl (encode_wrInten i d), fun s => ⟨_, exec_eq (.wrInten i d) s, rfl, rfl⟩⟩

/-- Settles O13: WR_DP's word, the one register it stores to, and the digit whose point a position lights. -/
theorem wrDpStoresTheData : Obligations.WrDpStoresTheData := fun d =>
  ⟨decode_eq_ok_of_encode_eq rfl (encodeWrite_eq_or dpAddr d), fun s => ⟨_, exec_eq (.wrDp d) s, rfl, rfl⟩,
    dpAt_iff d⟩

/-- Settles O16: the words of both reserved write patterns, and the block each of them leaves. -/
theorem wrRsvdChangesNothing : Obligations.WrRsvdChangesNothing := by
  refine fun x => ⟨?wordB, fun s => ⟨_, exec_eq (.wrRsvdB x) s, rfl, rfl⟩,
    fun a ha => ⟨?word, fun s => ⟨_, exec_eq (.wrRsvd a x) s, rfl, rfl⟩⟩⟩
  case wordB => exact decode_eq_ok_of_encode_eq rfl (encodeWrite_eq_or rsvdBAddr x)
  case word => exact decode_eq_ok_of_encode_eq (decide_eq_true ha) (encodeWrite_eq_or a x)

end Sys2Proof

/-! The host software (spec/44_host_software.md): the decimal digits of the Digit Formatter (R168). -/

namespace Sys2Proof.Machine

/-! ### The decimal digits (R168) -/

/-- Most significant first: position `i` holds the digit of weight `10 ^ (3 - i)`. -/
theorem decimalDigits_getElem (value : Nat) (i : DigitIx) :
    (decimalDigits value)[i] = value / 10 ^ (3 - i.val) % 10 := by
  match i with
  | 0 => rfl
  | 1 => rfl
  | 2 => rfl
  | 3 => exact congrArg (· % 10) (Nat.div_one value).symm

theorem decimalDigits_getElem_le_nine (value : Nat) (i : DigitIx) : (decimalDigits value)[i] ≤ 9 := by
  rw [decimalDigits_getElem]
  exact Nat.le_of_lt_succ (Nat.mod_lt _ (by decide))

/-- The four digits, each at its weight, keep a value of any size modulo 10000. -/
theorem decimalDigits_weightedSum (value : Nat) :
    (decimalDigits value)[0] * 1000 + (decimalDigits value)[1] * 100 + (decimalDigits value)[2] * 10 +
      (decimalDigits value)[3] = value % 10000 := by
  change value / 1000 % 10 * 1000 + value / 100 % 10 * 100 + value / 10 % 10 * 10 + value % 10 = value % 10000
  omega

end Sys2Proof.Machine

namespace Sys2Proof

open Sys2Proof.Machine

/-- Settles O56: up to 9999 the value modulo 10000 that the digits keep is the value itself. -/
theorem decimalDigitsRoundTrip : Obligations.DecimalDigitsRoundTrip := fun value hvalue =>
  ⟨(decimalDigits_weightedSum value).trans (Nat.mod_eq_of_lt (Nat.lt_succ_of_le hvalue)),
    decimalDigits_getElem_le_nine value⟩

end Sys2Proof

/-! Completion and interleaving (spec/60_exceptions.md): every operation is total (R190), and what the two orders of a
pair of operations leave (R197). -/

namespace Sys2Proof.Machine

/-! ### Completion (R190) -/

theorem exists_exec (i : Instr) (s : State) : ∃ t, exec i s = .next t := ⟨_, exec_eq i s⟩

/-- A step that faulted would name a reason, and there is none to name (R192). -/
theorem step_ne_fault (s : State) (r : Fault) : step s ≠ .fault r := nomatch r

/-! ### Two operations in a row (R17) -/

theorem runTrace_pair (i j : Instr) (s : State) :
    runTrace [i, j] s = .next ((s.withBlock (blockAfter j (blockAfter i s.block))).answer
      (rdataAfter j (blockAfter i s.block) (rdataAfter i s.block s.hRdata))) := by
  rw [runTrace_cons_of_next _ (exec_eq i s), runTrace_cons_of_next _ (exec_eq j _), runTrace_nil]
  rfl

section
variable {i j : Instr} {s t u : State}

theorem block_of_runTrace_pair (h : runTrace [i, j] s = .next t) : t.block = blockAfter j (blockAfter i s.block) := by
  rw [runTrace_pair, Host.Outcome.next.injEq] at h
  rw [← h, State.answer_block, State.withBlock_block]

theorem hRdata_of_runTrace_pair (h : runTrace [i, j] s = .next t) :
    t.hRdata = rdataAfter j (blockAfter i s.block) (rdataAfter i s.block s.hRdata) := by
  rw [runTrace_pair, Host.Outcome.next.injEq] at h
  rw [← h, State.answer_hRdata]

/-- What each order of a pair leaves in an element of the block. -/
theorem elem_of_both_orders {α : Type} (elem : Block → α) (ht : runTrace [i, j] s = .next t)
    (hu : runTrace [j, i] s = .next u) :
    elem t.block = elem (blockAfter j (blockAfter i s.block)) ∧
      elem u.block = elem (blockAfter i (blockAfter j s.block)) :=
  ⟨congrArg elem (block_of_runTrace_pair ht), congrArg elem (block_of_runTrace_pair hu)⟩

/-- The two orders of a pair are one outcome when they agree in the block and in the host port's answer. -/
theorem runTrace_pair_comm (hblock : blockAfter j (blockAfter i s.block) = blockAfter i (blockAfter j s.block))
    (hrdata : rdataAfter j (blockAfter i s.block) (rdataAfter i s.block s.hRdata) =
      rdataAfter i (blockAfter j s.block) (rdataAfter j s.block s.hRdata)) :
    runTrace [i, j] s = runTrace [j, i] s := by
  rw [runTrace_pair, runTrace_pair, hblock, hrdata]

/-- An element of the block that the two orders leave apart distinguishes them. -/
theorem runTrace_pair_ne {α : Type} (elem : Block → α)
    (h : elem (blockAfter j (blockAfter i s.block)) ≠ elem (blockAfter i (blockAfter j s.block))) :
    runTrace [i, j] s ≠ runTrace [j, i] s := by
  intro heq
  have hblock := block_of_runTrace_pair (heq.trans (runTrace_pair j i s))
  exact h (congrArg elem hblock.symm)

end

/-! ### TICK_MUX and the operations it commutes with -/

/-- TICK_MUX neither reads nor writes `ms` (R103). -/
theorem muxTick_withMs (b : Block) (v : Word32) : muxTick { b with ms := v } = { muxTick b with ms := v } := by
  simp only [muxTick, advance_eq]
  split_ifs <;> rfl

/-- An operation that writes no Display Buffer register leaves the same block before and after a TICK_MUX. -/
theorem blockAfter_muxTick {i : Instr} (b : Block) (h : writesBuffer i = false) :
    blockAfter i (muxTick b) = muxTick (blockAfter i b) := by
  obtain ⟨-, -, -, hms, -⟩ := muxTick_frame b
  cases i with
  | wrDigit | wrInten | wrDp | reset => cases h
  | clrMs => exact (muxTick_withMs b 0).symm
  | tickMs =>
    rw [blockAfter, msTick, hms]
    exact (muxTick_withMs b (b.ms + 1)).symm
  | clrRdy => exact (muxTick_withReady b false).symm
  | edge => exact (muxTick_withReady b true).symm
  | _ => rfl

/-- TICK_MUX writes nothing the host can read (R37). -/
theorem rdataAfter_muxTick (i : Instr) (b : Block) (old : Option Word32) :
    rdataAfter i (muxTick b) old = rdataAfter i b old := by
  obtain ⟨hdigits, hintens, hdp, hms, hready⟩ := muxTick_frame b
  cases i with
  | rdDigit => rw [rdataAfter, rdataAfter, hdigits]
  | rdInten => rw [rdataAfter, rdataAfter, hintens]
  | rdDp => rw [rdataAfter, rdataAfter, hdp]
  | rdMs => rw [rdataAfter, rdataAfter, hms]
  | rdRdy => rw [rdataAfter, rdataAfter, Block.readReady, hready, Block.readReady]
  | _ => rfl

/-- TICK_MUX commutes with every operation that does not write the Display Buffer. -/
theorem runTrace_tickMux_comm {i : Instr} (s : State) (h : writesBuffer i = false) :
    runTrace [.tickMux, i] s = runTrace [i, .tickMux] s :=
  runTrace_pair_comm (blockAfter_muxTick s.block h) (rdataAfter_muxTick i s.block s.hRdata)

/-! ### TICK_MUX at the end of a slot, and the writes it does not commute with -/

/-- The reset state at the last count of digit 0's slot, with point position `p`: the next TICK_MUX advances into digit 1. -/
def lastCountOfSlot (p : Byte) : State := State.reset.withBlock { Block.reset with duty := 100, dpPos := p }

/-- No clamped intensity is beyond 100, so at the end of a slot TICK_MUX advances whatever the intensity (R104). -/
theorem muxTick_of_slot_end {b : Block} (hwrap : 100 < b.duty.toNat + 1) : muxTick b = advance (b.cur + 1) b :=
  muxTick_of_advance (Nat.ne_of_gt (Nat.lt_of_le_of_lt (clampIntens_le _) hwrap)) hwrap

/-- An advance into a digit whose code has a glyph sets the point's segment by the point position (R106). -/
theorem muxTick_point_of_code {b : Block} (hwrap : 100 < b.duty.toNat + 1)
    (hcode : b.digits[b.cur + 1].toNat < 17) :
    (muxTick b).seg.getLsbD 7 = dpAt b.dpPos (b.cur + 1) := by
  rw [muxTick_of_slot_end hwrap, advance_eq]
  exact (congrArg (·.getLsbD 7) (renderedSeg_of_lt _ _ hcode)).trans (segPattern_getLsbD_point _ _)

/-- An advance into a digit whose code has no glyph leaves the segments (R102). -/
theorem muxTick_seg_of_no_code {b : Block} (hwrap : 100 < b.duty.toNat + 1)
    (hcode : ¬ b.digits[b.cur + 1].toNat < 17) : (muxTick b).seg = b.seg := by
  rw [muxTick_of_slot_end hwrap, advance_eq]
  exact renderedSeg_of_ge _ _ hcode

/-- Only the intensity written before the advance asserts the digit's line. -/
theorem tickMux_wrInten_not_comm :
    runTrace [.tickMux, .wrInten 1 7] (lastCountOfSlot 0) ≠ runTrace [.wrInten 1 7, .tickMux] (lastCountOfSlot 0) :=
  runTrace_pair_ne Block.dig (by decide)

/-- The code without a glyph, written before the advance, keeps the digit's point from being shown. -/
theorem tickMux_wrDigit_not_comm :
    runTrace [.tickMux, .wrDigit 1 17] (lastCountOfSlot 2) ≠ runTrace [.wrDigit 1 17, .tickMux] (lastCountOfSlot 2) := by
  have hshown : (muxTick (lastCountOfSlot 2).block).seg.getLsbD 7 = true :=
    muxTick_point_of_code (by decide) (by decide)
  have hkept : (muxTick ((lastCountOfSlot 2).block.setDigit 1 17)).seg.getLsbD 7 = false :=
    congrArg (·.getLsbD 7) (muxTick_seg_of_no_code (by decide) (by decide))
  exact runTrace_pair_ne (·.seg.getLsbD 7) fun h => nomatch hshown.symm.trans (h.trans hkept)

/-- Only the point position written before the advance is shown by it. -/
theorem tickMux_wrDp_not_comm :
    runTrace [.tickMux, .wrDp 2] (lastCountOfSlot 0) ≠ runTrace [.wrDp 2, .tickMux] (lastCountOfSlot 0) := by
  have hoff : (muxTick (lastCountOfSlot 0).block).seg.getLsbD 7 = false :=
    muxTick_point_of_code (by decide) (by decide)
  have hon : (muxTick ((lastCountOfSlot 0).block.setDpPos 2)).seg.getLsbD 7 = true :=
    muxTick_point_of_code (by decide) (by decide)
  exact runTrace_pair_ne (·.seg.getLsbD 7) fun h => nomatch hoff.symm.trans (h.trans hon)

/-! ### The reset block's registers (R36) -/

theorem Block.reset_digits_getElem (k : DigitIx) : Block.reset.digits[k] = 0 := by
  revert k; decide

theorem Block.reset_intens_getElem (k : DigitIx) : Block.reset.intens[k] = 0 := by
  revert k; decide

end Sys2Proof.Machine

namespace Sys2Proof

open Sys2Proof.Machine

/-- Settles O22: `exec_eq` gives every operation its next state, and a fault would need a reason that `Fault` does not have. -/
theorem everyOperationCompletes : Obligations.EveryOperationCompletes := ⟨exists_exec, step_ne_fault⟩

/-- Settles O30: TICK_MUX commutes with all that does not write the buffer; at the last count of a slot each buffer write
shows the order; and what each order of the other pairs leaves is read off `blockAfter` and `rdataAfter`. -/
theorem commutingPairsOfSteps : Obligations.CommutingPairsOfSteps := by
  refine ⟨?handlers, fun i s _ hbuf => runTrace_tickMux_comm s hbuf, ?tickMs_rdMs, ?tickMs_clrMs, ?edge_rdRdy,
    ?edge_clrRdy, ⟨_, tickMux_wrInten_not_comm⟩, ⟨_, tickMux_wrDigit_not_comm⟩, ⟨_, tickMux_wrDp_not_comm⟩,
    fun _ _ _ ht => block_of_runTrace_pair ht, ?tickMs_reset, ?edge_reset, ?tickMux_reset, ?wrDigit_reset,
    ?wrInten_reset, ?wrDp_reset, ?rdMs_reset⟩
  case handlers =>
    exact fun s => ⟨runTrace_tickMux_comm s rfl, runTrace_tickMux_comm s rfl, runTrace_pair_comm rfl rfl⟩
  case tickMs_rdMs => exact fun _ _ _ ht hu => ⟨hRdata_of_runTrace_pair ht, hRdata_of_runTrace_pair hu⟩
  case tickMs_clrMs =>
    intro x s t u ht hu
    obtain ⟨hlast, hfirst⟩ := elem_of_both_orders (·.ms) ht hu
    exact ⟨hlast, hfirst.trans (BitVec.zero_add 1)⟩
  case edge_rdRdy =>
    intro s t u ht hu
    exact ⟨hRdata_of_runTrace_pair ht, (hRdata_of_runTrace_pair hu).trans (congrArg some s.block.readReady_eq)⟩
  case edge_clrRdy => exact fun _ _ _ _ ht hu => elem_of_both_orders (·.ready) ht hu
  case tickMs_reset => exact fun _ _ _ ht hu => elem_of_both_orders (·.ms) ht hu
  case edge_reset => exact fun _ _ _ ht hu => elem_of_both_orders (·.ready) ht hu
  case tickMux_reset => exact fun _ _ _ ht hu => elem_of_both_orders (·.duty) ht hu
  case wrDigit_reset =>
    intro k d s t u ht hu
    obtain ⟨hlast, hfirst⟩ := elem_of_both_orders (·.digits[k]) ht hu
    exact ⟨hlast.trans (Block.reset_digits_getElem k), hfirst.trans (Block.setDigit_getElem_self _ k d)⟩
  case wrInten_reset =>
    intro k d s t u ht hu
    obtain ⟨hlast, hfirst⟩ := elem_of_both_orders (·.intens[k]) ht hu
    exact ⟨hlast.trans (Block.reset_intens_getElem k), hfirst.trans (Block.setInten_getElem_self _ k d)⟩
  case wrDp_reset => exact fun _ _ _ _ ht hu => elem_of_both_orders (·.dpPos) ht hu
  case rdMs_reset => exact fun _ _ _ ht hu => ⟨hRdata_of_exec ht, hRdata_of_runTrace_pair hu⟩

end Sys2Proof

/-! The statement of spec/70_reset_and_hazards.md about RESET itself (R220, R36). -/

namespace Sys2Proof

open Sys2Proof.Machine

/-- Settles O1: RESET's word, and `Block.reset`, the block that RESET leaves from every state and that the initial state
has, is the block of zeros. -/
theorem resetSetsEveryElement : Obligations.ResetSetsEveryElement :=
  ⟨by decide, fun s => ⟨_, exec_eq .reset s, rfl⟩, rfl⟩

end Sys2Proof

/-! The encoding both ways (R72 to R76), the assembler's text (R90), and one step of the machine as the operation that
its next stimulus word decodes to (R17, R192). -/

namespace Sys2Proof.Machine

/-! ### The operands of a line of text (R90) -/

@[simp] theorem operandBelow_digitIx (i : DigitIx) : operandBelow 4 i.val = some i.val := if_pos i.isLt

@[simp] theorem operandBelow_byte (d : Byte) : operandBelow 256 d.toNat = some d.toNat := if_pos d.isLt

theorem rsvdOperand_of_rsvdHighAddr {a : HAddr} (h : rsvdHighAddr a = true) : rsvdOperand a.toNat = some a.toNat :=
  if_pos ⟨le_toNat_of_rsvdHighAddr h, a.isLt⟩

theorem toNat_ne_of_rsvdHighAddr {a : HAddr} (h : rsvdHighAddr a = true) : a.toNat ≠ 0xB := by
  revert a; decide

theorem rdRsvdAt_of_rsvdHighAddr {a : HAddr} (h : rsvdHighAddr a = true) : rdRsvdAt a.toNat = .rdRsvd a := by
  rw [rdRsvdAt, if_neg (toNat_ne_of_rsvdHighAddr h), BitVec.ofNat_toNat, BitVec.setWidth_eq]

theorem wrRsvdAt_of_rsvdHighAddr {a : HAddr} (x : Byte) (h : rsvdHighAddr a = true) :
    wrRsvdAt a.toNat x = .wrRsvd a x := by
  rw [wrRsvdAt, if_neg (toNat_ne_of_rsvdHighAddr h), BitVec.ofNat_toNat, BitVec.setWidth_eq]

/-! ### The port and the stimuli (log entries 1 and 2) -/

theorem stimuli_of_exec {i : Instr} {s t : State} (h : exec i s = .next t) : t.stimuli = s.stimuli := by
  rw [exec_eq_next_iff.mp h, State.answer_stimuli, State.withBlock_stimuli]

theorem rdataAfter_of_event {i : Instr} (b : Block) (old : Option Word32) (h : i.agent ≠ .host) :
    rdataAfter i b old = old := by
  cases i with
  | reset | tickMux | tickMs | edge => rfl
  | _ => exact absurd rfl h

/-! ### The step (R17) -/

theorem step_of_idle {s : State} (h : s.stimuli = []) : step s = .next s := by
  simp only [step, h]

theorem step_of_decode_ok {s : State} {w : StimWord} {ws : List StimWord} {i : Instr} (h : s.stimuli = w :: ws)
    (hdec : decode w = .ok i) : step s = exec i { s with stimuli := ws } := by
  simp only [step, h, deliver, hdec]

theorem step_of_decode_error {s : State} {w : StimWord} {ws : List StimWord} {why : NotStimulus}
    (h : s.stimuli = w :: ws) (hdec : decode w = .error why) : step s = .refused (.notAStimulus why) := by
  simp only [step, h, deliver, hdec]

/-- Everything a step can be: idle, the operation the next word decodes to, or a refusal of that word. -/
theorem step_cases (s : State) :
    (s.stimuli = [] ∧ step s = .next s) ∨
    (∃ w ws i, s.stimuli = w :: ws ∧ decode w = .ok i ∧ step s = exec i { s with stimuli := ws }) ∨
    (∃ w ws why, s.stimuli = w :: ws ∧ decode w = .error why ∧ step s = .refused (.notAStimulus why)) := by
  cases hst : s.stimuli with
  | nil => exact .inl ⟨rfl, step_of_idle hst⟩
  | cons w ws =>
    cases hdec : decode w with
    | ok i => exact .inr (.inl ⟨w, ws, i, rfl, hdec, step_of_decode_ok hst hdec⟩)
    | error why => exact .inr (.inr ⟨w, ws, why, rfl, hdec, step_of_decode_error hst hdec⟩)

/-- A step that answers a next state leaves the state, or takes one word and leaves its operation's block. -/
theorem step_next_cases {s t : State} (h : step s = .next t) :
    t = s ∨ ∃ w i, s.stimuli = w :: t.stimuli ∧ decode w = .ok i ∧ t.block = blockAfter i s.block := by
  rcases step_cases s with ⟨-, hs⟩ | ⟨w, ws, i, hst, hdec, hs⟩ | ⟨w, ws, why, -, -, hs⟩
  · exact .inl (Host.Outcome.next.inj (h.symm.trans hs))
  · have hexec := hs.symm.trans h
    have hws : t.stimuli = ws := stimuli_of_exec hexec
    exact .inr ⟨w, i, hws ▸ hst, hdec, by rw [block_of_exec hexec]⟩
  · cases h.symm.trans hs

theorem step_withFetchWord (s : State) {w : Nat} {i : Instr} (h : decodeTableWord 16 w = some i) :
    step (s.withFetchWord 16 w) = exec i s := by
  rw [decodeTableWord, if_neg (lt_irrefl 16)] at h
  split at h
  case h_1 j hdec =>
    cases h
    exact step_of_decode_ok rfl hdec
  case h_2 => cases h

/-! ### A trace placed as stimuli (R17) -/

/-- A run on any machine goes on from the state that the first step answers. -/
theorem run_succ_of_step {M : Host.Core} {k : Nat} {s t : M.State} (h : M.step s = .next t) :
    M.run (k + 1) s = M.run k t := by
  rw [Host.Core.run, h]

theorem core_run_succ_of_step {k : Nat} {s t : State} (h : step s = .next t) :
    Sys2Proof.core.run (k + 1) s = Sys2Proof.core.run k t :=
  run_succ_of_step (M := Sys2Proof.core) (s := s) (t := t) h

/-- With the word of `i` at the head of the stimuli, a step executes `i` and leaves the rest of them. -/
theorem step_encode_cons {i : Instr} (ws : List StimWord) (s : State) (hwf : i.wf = true) :
    step { s with stimuli := encode i :: ws } =
      .next { (s.withBlock (blockAfter i s.block)).answer (rdataAfter i s.block s.hRdata) with stimuli := ws } :=
  (step_of_decode_ok rfl (decode_encode hwf)).trans (exec_eq i _)

/-- Running the words of a trace is running the trace, whatever other words wait behind them. -/
theorem core_run_encoded (is : List Instr) (ws : List StimWord) (s : State) (hwf : ∀ i ∈ is, i.wf = true) :
    Sys2Proof.core.run is.length { s with stimuli := is.map encode ++ ws } = runTrace is { s with stimuli := ws } := by
  induction is generalizing s with
  | nil => rfl
  | cons i is ih =>
    obtain ⟨hi, his⟩ := List.forall_mem_cons.mp hwf
    rw [runTrace_cons_of_next is (exec_eq i _)]
    exact (core_run_succ_of_step (step_encode_cons (is.map encode ++ ws) s hi)).trans (ih _ his)

end Sys2Proof.Machine

namespace Sys2Proof

open Sys2Proof.Machine

/-- Settles O31: the fields of each word give back the operation, family by family. -/
theorem decodeOfEncodeIsTheOperation : Obligations.DecodeOfEncodeIsTheOperation := fun _ hwf => decode_encode hwf

/-- Settles O32: the word of the operation decoded is put together from the very fields that the decoder read. -/
theorem encodeOfDecodeIsTheWord : Obligations.EncodeOfDecodeIsTheWord := fun _ _ hdec => encode_of_decode hdec

/-- Settles O35: fifteen fixed words, evaluated. -/
theorem writtenOutWordsDecode : Obligations.WrittenOutWordsDecode := by
  unfold Obligations.WrittenOutWordsDecode
  decide

/-- Settles O36: each operation's own line; an index, a data byte and a reserved address are operands in range. -/
theorem assemblerReadsTheTextBack : Obligations.AssemblerReadsTheTextBack := by
  intro i hwf
  cases i with
  | rdDigit | rdInten | wrDigit | wrInten | wrDp =>
    simp [Instr.row, Instr.rowIndex, opcodeTable, textOperands, assemble]
  | rdRsvd a =>
    simp [Instr.row, Instr.rowIndex, opcodeTable, textOperands, assemble, rsvdOperand_of_rsvdHighAddr hwf,
      rdRsvdAt_of_rsvdHighAddr hwf]
  | wrRsvdB x => simp [Instr.row, Instr.rowIndex, opcodeTable, textOperands, assemble, rsvdOperand, wrRsvdAt]
  | wrRsvd a x =>
    simp [Instr.row, Instr.rowIndex, opcodeTable, textOperands, assemble, rsvdOperand_of_rsvdHighAddr hwf,
      wrRsvdAt_of_rsvdHighAddr x hwf]
  | _ => rfl

/-- Settles O37: the step at a word that decodes, and `withFetchWord` as the placing of such a word. -/
theorem stepRunsTheDecodedOperation : Obligations.StepRunsTheDecodedOperation :=
  ⟨fun _ _ _ _ hst hdec => step_of_decode_ok hst hdec, fun s _ _ hdec => step_withFetchWord s hdec⟩

/-- Settles O38: an idle step and an operation answer a next state, so a refusal is of a word that does not decode. -/
theorem stepRefusesOnlyNonStimuli : Obligations.StepRefusesOnlyNonStimuli := by
  refine fun s r => ⟨fun h => ?_, ?_⟩
  · rcases step_cases s with ⟨-, hs⟩ | ⟨w, ws, i, -, -, hs⟩ | ⟨w, ws, why, hst, hdec, hs⟩
    · cases hs.symm.trans h
    · cases (hs.trans (exec_eq i _)).symm.trans h
    · exact ⟨w, ws, why, hst, hdec, Host.Outcome.refused.inj (h.symm.trans hs)⟩
  · rintro ⟨w, ws, why, hst, hdec, rfl⟩
    exact step_of_decode_error hst hdec

/-- Settles O39: a step takes a word only when one is pending. -/
theorem stepWithoutStimulusIdles : Obligations.StepWithoutStimulusIdles := fun _ hst => step_of_idle hst

/-- Settles O40, by induction on the trace: each step takes the word of the trace's next operation. -/
theorem stepsOfATraceAreItsFold : Obligations.StepsOfATraceAreItsFold := core_run_encoded

/-- Settles O29: `exec_eq` names all that an operation touches, and an event answers what the port answered before. -/
theorem operationsLeaveStimuliAndEventsLeaveThePort : Obligations.OperationsLeaveStimuliAndEventsLeaveThePort :=
  fun _ _ _ h => ⟨stimuli_of_exec h, fun hev => (hRdata_of_exec h).trans (rdataAfter_of_event _ _ hev)⟩

end Sys2Proof

/-! The display's invariants step by step (R28, R105, R110), and the writers of `seg` (R29). -/

namespace Sys2Proof.Machine

/-! ### A step keeps what the pending operations keep -/

/-- Every pending stimulus that decodes is an operation that `Q` holds of. -/
def PendingAll (Q : Instr → Prop) (s : State) : Prop := ∀ w ∈ s.stimuli, ∀ i : Instr, decode w = .ok i → Q i

/-- What every operation in `Q` keeps of the block, a step keeps while only such operations are pending. -/
theorem step_keeps {P : Block → Prop} {Q : Instr → Prop} {s t : State}
    (hkeep : ∀ (i : Instr) (b : Block), Q i → P b → P (blockAfter i b)) (hP : P s.block) (hQ : PendingAll Q s)
    (h : step s = .next t) : P t.block ∧ PendingAll Q t := by
  rcases step_next_cases h with rfl | ⟨w, i, hst, hdec, hblock⟩
  · exact ⟨hP, hQ⟩
  · unfold PendingAll at hQ
    rw [hst] at hQ
    obtain ⟨hw, hrest⟩ := List.forall_mem_cons.mp hQ
    exact ⟨hblock ▸ hkeep i s.block (hw i hdec) hP, hrest⟩

/-! ### The duty counter's range (R28) -/

/-- TICK_MUX leaves a count of at most 100, from any count. -/
theorem muxTick_duty_le (b : Block) : (muxTick b).duty.toNat ≤ 100 := by
  rcases muxTick_cases b with ⟨hn, h⟩ | ⟨-, -, h⟩ | ⟨-, hle, h⟩
  · have hle : b.duty.toNat + 1 ≤ 100 := hn ▸ clampIntens_le _
    rw [h, Block.setDig_duty, setDuty_toNat b hle]
    exact hle
  · rw [h, advance_eq]
    exact Nat.zero_le _
  · rw [h, setDuty_toNat b hle]
    exact hle

theorem blockAfter_duty_le (i : Instr) {b : Block} (h : b.duty.toNat ≤ 100) : (blockAfter i b).duty.toNat ≤ 100 := by
  cases i with
  | tickMux => exact muxTick_duty_le b
  | reset => exact Nat.zero_le _
  | _ => exact h

/-! ### The digit-select lines at a tick (R103) -/

/-- Line `k` after TICK_MUX: deasserted in digit `k`'s slot at the count of its clamped intensity, asserted at an
advance into digit `k` under a nonzero intensity, else as it was. -/
theorem muxTick_dig_getElem (b : Block) (k : DigitIx) :
    (muxTick b).dig[k] =
      if b.cur = k ∧ b.duty.toNat + 1 = clampIntens b.intens[k] then false
      else if 100 < b.duty.toNat + 1 ∧ b.cur + 1 = k ∧ b.intens[k] ≠ 0 then true
      else b.dig[k] := by
  have hstays (hn : b.duty.toNat + 1 ≠ clampIntens b.intens[b.cur]) :
      ¬ (b.cur = k ∧ b.duty.toNat + 1 = clampIntens b.intens[k]) := by
    rintro ⟨rfl, heq⟩
    exact hn heq
  rcases muxTick_cases b with ⟨hn, h⟩ | ⟨hn, hwrap, h⟩ | ⟨hn, hle, h⟩
  · have hle : ¬ 100 < b.duty.toNat + 1 := Nat.not_lt.mpr (hn ▸ clampIntens_le _)
    rw [h, Block.setDig_dig, Block.setDuty_dig, getElem_set_digitIx]
    by_cases hk : b.cur = k
    · subst hk
      rw [if_pos rfl, if_pos ⟨rfl, hn⟩]
    · rw [if_neg hk, if_neg (mt And.left hk), if_neg (mt And.left hle)]
  · rw [h, advance_dig_getElem, if_neg (hstays hn)]
    simp only [hwrap, true_and]
  · rw [h, if_neg (hstays hn), if_neg (mt And.left (Nat.not_lt.mpr hle)), Block.setDuty_dig]

/-! ### The steady display (R105) -/

theorem atMostOneLit_of_litOnlyInOwnSlot {b : Block} (h : LitOnlyInOwnSlot b) : AtMostOneLit b := fun i j hi hj =>
  (h i hi).1.trans (h j hj).1.symm

/-- Only an intensity write and RESET write an intensity (R22). -/
theorem blockAfter_intens {i : Instr} (b : Block) (hw : writesInten i = false) (hrst : i ≠ .reset) :
    (blockAfter i b).intens = b.intens := by
  cases i with
  | tickMux =>
    obtain ⟨-, hintens, -, -, -⟩ := muxTick_frame b
    exact hintens
  | wrInten => cases hw
  | reset => exact absurd rfl hrst
  | _ => rfl

theorem litOnlyInOwnSlot_reset : LitOnlyInOwnSlot Block.reset := fun k hk =>
  nomatch (Block.reset_dig_getElem k).symm.trans hk

/-- TICK_MUX deasserts the line of the slot at the end of its on-portion, and asserts a line only as it starts its
slot. -/
theorem muxTick_litOnlyInOwnSlot {b : Block} (h : LitOnlyInOwnSlot b) : LitOnlyInOwnSlot (muxTick b) := by
  intro k hk
  obtain ⟨-, hintens, -, -, -⟩ := muxTick_frame b
  rw [hintens]
  rw [muxTick_dig_getElem] at hk
  split_ifs at hk with hA hB
  · obtain ⟨hwrap, hnext, hne⟩ := hB
    rw [muxTick_of_slot_end hwrap, advance_eq]
    exact ⟨hnext.symm, clampIntens_pos hne⟩
  · obtain ⟨hcur, hlt⟩ := h k hk
    have hn := clampIntens_le b.intens[k]
    rcases muxTick_cursor b with ⟨hduty, hsame⟩ | ⟨hwrap, -, -⟩
    · have hne : b.duty.toNat + 1 ≠ clampIntens b.intens[k] := fun heq => hA ⟨hcur.symm, heq⟩
      exact ⟨hcur.trans hsame.symm, by omega⟩
    · omega

theorem blockAfter_litOnlyInOwnSlot {i : Instr} {b : Block} (hw : writesInten i = false) (h : LitOnlyInOwnSlot b) :
    LitOnlyInOwnSlot (blockAfter i b) := by
  by_cases hmux : i = .tickMux
  · subst hmux
    exact muxTick_litOnlyInOwnSlot h
  by_cases hrst : i = .reset
  · subst hrst
    exact litOnlyInOwnSlot_reset
  · obtain ⟨⟨hcur, hduty⟩, -, hdig⟩ := blockAfter_sameCursor_sameOutputs b hmux hrst
    unfold LitOnlyInOwnSlot
    rw [hcur, hduty, hdig, blockAfter_intens b hw hrst]
    exact h

/-! ### A blanked digit (R110) -/

/-- Digit `k` has intensity 0 and is not asserted. -/
def Blanked (k : DigitIx) (b : Block) : Prop := b.intens[k] = 0 ∧ b.dig[k] = false

theorem blanked_reset (k : DigitIx) : Blanked k Block.reset :=
  ⟨Block.reset_intens_getElem k, Block.reset_dig_getElem k⟩

/-- TICK_MUX asserts no line of intensity 0. -/
theorem muxTick_blanked {k : DigitIx} {b : Block} (h : Blanked k b) : Blanked k (muxTick b) := by
  obtain ⟨hint, hdig⟩ := h
  obtain ⟨-, hintens, -, -, -⟩ := muxTick_frame b
  refine ⟨by rw [hintens, hint], ?_⟩
  rw [muxTick_dig_getElem]
  split_ifs with hoff hon
  · rfl
  · obtain ⟨-, -, hne⟩ := hon
    exact absurd hint hne
  · exact hdig

theorem blockAfter_blanked {k : DigitIx} {i : Instr} {b : Block} (hi : ∀ d : Byte, i = .wrInten k d → d = 0)
    (h : Blanked k b) : Blanked k (blockAfter i b) := by
  cases i with
  | tickMux => exact muxTick_blanked h
  | reset => exact blanked_reset k
  | wrInten j d =>
    obtain ⟨hint, hdig⟩ := h
    refine ⟨?_, hdig⟩
    rw [blockAfter, Block.setInten_intens, getElem_set_digitIx]
    split
    case isTrue hj => exact hi d (hj ▸ rfl)
    case isFalse => exact hint
  | _ => exact h

theorem staysBlankPending_iff {k : DigitIx} {s : State} :
    StaysBlankPending k s ↔ PendingAll (fun i => ∀ d : Byte, i = .wrInten k d → d = 0) s := by
  constructor
  · rintro h w hw i hi d rfl
    exact h w hw d hi
  · exact fun h w hw d hd => h w hw _ hd d rfl

/-! ### The writers of `seg` (R29) -/

/-- TICK_MUX writes `seg` only at an advance, into a digit whose code has a glyph. -/
theorem muxTick_seg_cases (b : Block) :
    (muxTick b).seg = b.seg ∨
      (100 < b.duty.toNat + 1 ∧ (muxTick b).duty = 0 ∧ (muxTick b).cur = b.cur + 1 ∧
        b.digits[b.cur + 1].toNat ≤ 16) := by
  rcases muxTick_cases b with ⟨-, h⟩ | ⟨-, hwrap, h⟩ | ⟨-, -, h⟩
  · exact .inl (by rw [h, Block.setDig_seg, Block.setDuty_seg])
  · by_cases hcode : b.digits[b.cur + 1].toNat < 17
    · exact .inr ⟨hwrap, by rw [h, advance_eq], by rw [h, advance_eq], Nat.le_of_lt_succ hcode⟩
    · exact .inl (muxTick_seg_of_no_code hwrap hcode)
  · exact .inl (by rw [h, Block.setDuty_seg])

end Sys2Proof.Machine

namespace Sys2Proof

open Sys2Proof.Machine

/-- Settles O41: every operation keeps the range, TICK_MUX because each of its branches leaves a count of at most
100. -/
theorem everyStepKeepsDutyInRange : Obligations.EveryStepKeepsDutyInRange := fun _ _ hduty h =>
  (step_keeps (P := (·.duty.toNat ≤ 100)) (Q := fun _ => True) (fun i _ _ hb => blockAfter_duty_le i hb) hduty
    (fun _ _ _ _ => trivial) h).1

/-- Settles O42: every operation but an intensity write keeps the lit digit in its own on-portion, and two digits so lit
are both the current one. -/
theorem everyStepKeepsTheDisplaySteady : Obligations.EveryStepKeepsTheDisplaySteady := by
  rintro s t ⟨hlit, hpending⟩ h
  have hsteady : SteadyDisplay t := step_keeps (fun _ _ hw hb => blockAfter_litOnlyInOwnSlot hw hb) hlit hpending h
  exact ⟨hsteady, atMostOneLit_of_litOnlyInOwnSlot hlit, atMostOneLit_of_litOnlyInOwnSlot hsteady.1⟩

/-- Settles O43: every operation but a nonzero intensity write to the digit keeps it blanked. -/
theorem everyStepKeepsABlankedDigitDark : Obligations.EveryStepKeepsABlankedDigitDark := by
  rintro k s t ⟨hint, hdig, hpending⟩ h
  obtain ⟨⟨hint', hdig'⟩, hpending'⟩ := step_keeps (P := Blanked k) (fun _ _ hi hb => blockAfter_blanked hi hb)
    ⟨hint, hdig⟩ (staysBlankPending_iff.mp hpending) h
  exact ⟨hint', hdig', staysBlankPending_iff.mpr hpending'⟩

/-- Settles O44: the reset block is dark with its cursor at 0, and no stimulus is pending. -/
theorem resetMeetsTheInvariants : Obligations.ResetMeetsTheInvariants :=
  ⟨Nat.zero_le _, ⟨litOnlyInOwnSlot_reset, nofun⟩, fun k =>
    ⟨Block.reset_intens_getElem k, Block.reset_dig_getElem k, nofun⟩⟩

/-- Settles O26: no operation but TICK_MUX and RESET writes the outputs, and TICK_MUX writes `seg` only at an
advance. -/
theorem segChangesOnlyAtAnAdvance : Obligations.SegChangesOnlyAtAnAdvance := by
  intro i s t h hne
  have hblock := block_of_exec h
  by_cases hrst : i = .reset
  · exact .inl hrst
  by_cases hmux : i = .tickMux
  · subst hmux
    rw [blockAfter] at hblock
    rcases muxTick_seg_cases s.block with hsame | ⟨hwrap, hduty, hcur, hcode⟩
    · exact absurd (hblock ▸ hsame) hne
    · simp only [hblock, hcur]
      exact .inr ⟨trivial, hwrap, hduty, succ_digitIx_val _, hcode⟩
  · obtain ⟨-, hseg, -⟩ := blockAfter_sameCursor_sameOutputs s.block hmux hrst
    exact absurd (hblock ▸ hseg) hne

end Sys2Proof

/-! Runs of TICK_MUX (R108 to R113, R230, R231): a frame is a cycle of 404 cursor positions, through which each TICK_MUX
moves by one, whatever the Display Buffer holds. -/

namespace Sys2Proof.Machine

/-! ### The ticks of a trace are iterations of `muxTick` -/

theorem exists_runTrace_rep_tickMux (k : Nat) (s : State) :
    ∃ t, runTrace (pseudoRep k .tickMux) s = .next t ∧ t.block = muxTick^[k] s.block := by
  induction k with
  | zero => exact ⟨s, rfl, rfl⟩
  | succ k ih =>
    obtain ⟨t, hrun, hblock⟩ := ih
    refine ⟨_, runTrace_rep_succ hrun, ?_⟩
    rw [State.withBlock_block, hblock, Function.iterate_succ_apply']

/-- What holds of the block after `k` iterations holds after `REP k, TICK_MUX`. -/
theorem exists_runTrace_rep_of_iterate {k : Nat} {s : State} {P : Block → Prop} (h : P (muxTick^[k] s.block)) :
    ∃ t, runTrace (pseudoRep k .tickMux) s = .next t ∧ P t.block := by
  obtain ⟨t, hrun, hblock⟩ := exists_runTrace_rep_tickMux k s
  exact ⟨t, hrun, hblock ▸ h⟩

theorem muxTick_iterate_sameBuffer (k : Nat) (b : Block) : SameBuffer (muxTick^[k] b) b := by
  induction k with
  | zero => exact ⟨rfl, rfl, rfl⟩
  | succ k ih =>
    obtain ⟨hdigits, hintens, hdp⟩ := ih
    obtain ⟨hdigits', hintens', hdp', -, -⟩ := muxTick_frame (muxTick^[k] b)
    rw [Function.iterate_succ_apply']
    exact ⟨hdigits'.trans hdigits, hintens'.trans hintens, hdp'.trans hdp⟩

/-! ### The position in the frame (R108) -/

/-- The cursor as one number: the ticks since the advance into digit 0. -/
def framePos (b : Block) : Nat := 101 * b.cur.val + b.duty.toNat

theorem cursor_of_framePos {b : Block} (h : b.duty.toNat ≤ 100) :
    b.cur.val = framePos b / 101 ∧ b.duty.toNat = framePos b % 101 := by
  unfold framePos
  omega

theorem framePos_lt {b : Block} (h : b.duty.toNat ≤ 100) : framePos b < 404 := by
  unfold framePos
  omega

/-- TICK_MUX moves the cursor to the next position of the frame, from the last one to the first. -/
theorem framePos_muxTick {b : Block} (h : b.duty.toNat ≤ 100) : framePos (muxTick b) = (framePos b + 1) % 404 := by
  have hle := muxTick_duty_le b
  unfold framePos
  rcases muxTick_cursor b with ⟨hduty, hcur⟩ | ⟨hwrap, hduty, hcur⟩
  · rw [hcur, hduty]
    omega
  · have hduty0 : (muxTick b).duty.toNat = 0 := congrArg BitVec.toNat hduty
    rw [hcur, hduty0, succ_digitIx_val]
    omega

theorem muxTick_iterate_framePos (k : Nat) {b : Block} (h : b.duty.toNat ≤ 100) :
    (muxTick^[k] b).duty.toNat ≤ 100 ∧ framePos (muxTick^[k] b) = (framePos b + k) % 404 := by
  induction k with
  | zero => exact ⟨h, (Nat.mod_eq_of_lt (framePos_lt h)).symm⟩
  | succ k ih =>
    obtain ⟨hle, hpos⟩ := ih
    rw [Function.iterate_succ_apply', framePos_muxTick hle, hpos]
    exact ⟨muxTick_duty_le _, by omega⟩

/-- The cursor after `k` ticks, in closed form. -/
theorem muxTick_iterate_cursor (k : Nat) {b : Block} (h : b.duty.toNat ≤ 100) :
    (muxTick^[k] b).cur.val = (framePos b + k) % 404 / 101 ∧
      (muxTick^[k] b).duty.toNat = (framePos b + k) % 404 % 101 := by
  obtain ⟨hle, hpos⟩ := muxTick_iterate_framePos k h
  rw [← hpos]
  exact cursor_of_framePos hle

theorem exists_runTrace_rep_cursor (k : Nat) {s : State} (h : s.block.duty.toNat ≤ 100) :
    ∃ t, runTrace (pseudoRep k .tickMux) s = .next t ∧
      t.block.cur.val = (framePos s.block + k) % 404 / 101 ∧
      t.block.duty.toNat = (framePos s.block + k) % 404 % 101 :=
  exists_runTrace_rep_of_iterate
    (P := fun b => b.cur.val = (framePos s.block + k) % 404 / 101 ∧ b.duty.toNat = (framePos s.block + k) % 404 % 101)
    (muxTick_iterate_cursor k h)

/-- Up to the end of the slot the cursor stays in the digit and counts. -/
theorem muxTick_iterate_within_slot {k : Nat} {b : Block} (h : b.duty.toNat + k ≤ 100) :
    (muxTick^[k] b).cur = b.cur ∧ (muxTick^[k] b).duty.toNat = b.duty.toNat + k := by
  obtain ⟨hcur, hduty⟩ := muxTick_iterate_cursor k (b := b) (by omega)
  unfold framePos at hcur hduty
  exact ⟨Fin.ext (by omega), by omega⟩

/-- Every position of the frame is reached before the frame is over. -/
theorem exists_iterate_cursor {b : Block} (h : b.duty.toNat ≤ 100) (c : DigitIx) {d : Nat} (hd : d ≤ 100) :
    ∃ k < 404, (muxTick^[k] b).cur = c ∧ (muxTick^[k] b).duty.toNat = d := by
  obtain ⟨hcur, hduty⟩ := muxTick_iterate_cursor ((101 * c.val + d + 404 - framePos b) % 404) h
  have hpos := framePos_lt h
  exact ⟨(101 * c.val + d + 404 - framePos b) % 404, Nat.mod_lt _ (by decide), Fin.ext (by omega), by omega⟩

/-! ### A lit digit over a frame (R109, R112, R231) -/

/-- From the advance into digit `c` on, its line is asserted in the first ticks of each frame, as many as its clamped
intensity. -/
theorem muxTick_iterate_dig {b : Block} {c : DigitIx} (k : Nat) (hcur : b.cur = c) (hduty : b.duty = 0)
    (hdig : b.dig[c] = true) (hint : b.intens[c] ≠ 0) :
    (muxTick^[k] b).dig[c] = decide (k % 404 < clampIntens b.intens[c]) := by
  have hpos := clampIntens_pos hint
  have hle := clampIntens_le b.intens[c]
  have hduty0 : b.duty.toNat = 0 := by rw [hduty]; rfl
  induction k with
  | zero => simpa [hdig] using hpos
  | succ k ih =>
    obtain ⟨-, hintens, -⟩ := muxTick_iterate_sameBuffer k b
    obtain ⟨hcur', hduty'⟩ := muxTick_iterate_cursor k (b := b) (by omega)
    rw [framePos, hcur, hduty0] at hcur' hduty'
    rw [Function.iterate_succ_apply', muxTick_dig_getElem, hintens, ih]
    simp only [Fin.ext_iff, succ_digitIx_val, hcur', hduty', hint, ne_eq, not_false_eq_true, and_true]
    have hc := c.isLt
    split_ifs with hA hB
    · obtain ⟨hown, hn⟩ := hA
      exact (decide_eq_false (by omega)).symm
    · obtain ⟨hwrap, hnext⟩ := hB
      exact (decide_eq_true (by omega)).symm
    · refine decide_eq_decide.mpr ?_
      omega

/-- Past the deassert count a line keeps its level to the end of the slot. -/
theorem muxTick_iterate_dig_of_missed {b : Block} {k : Nat} (hn : clampIntens b.intens[b.cur] ≤ b.duty.toNat)
    (hk : b.duty.toNat + k ≤ 100) : (muxTick^[k] b).dig[b.cur] = b.dig[b.cur] := by
  induction k with
  | zero => rfl
  | succ k ih =>
    obtain ⟨-, hintens, -⟩ := muxTick_iterate_sameBuffer k b
    obtain ⟨hcur, hduty⟩ := muxTick_iterate_within_slot (k := k) (b := b) (by omega)
    rw [Function.iterate_succ_apply', muxTick_dig_getElem, hintens, hcur, hduty, if_neg (by omega), if_neg (by omega)]
    exact ih (by omega)

/-! ### Glyph codes and the decimal point between advances (R113) -/

theorem muxTick_seg_of_le {b : Block} (h : b.duty.toNat + 1 ≤ 100) : (muxTick b).seg = b.seg := by
  rcases muxTick_seg_cases b with hseg | ⟨hwrap, -⟩
  · exact hseg
  · omega

theorem muxTick_iterate_seg {b : Block} {k : Nat} (h : b.duty.toNat + k ≤ 100) : (muxTick^[k] b).seg = b.seg := by
  induction k with
  | zero => rfl
  | succ k ih =>
    obtain ⟨-, hduty⟩ := muxTick_iterate_within_slot (k := k) (b := b) (by omega)
    rw [Function.iterate_succ_apply', muxTick_seg_of_le (by omega)]
    exact ih (by omega)

/-- A TICK_MUX that does not advance neither reads nor writes the glyph codes and the point position. -/
theorem muxTick_withGlyphs {b : Block} (ds : Vector Byte 4) (p : Byte) (h : b.duty.toNat + 1 ≤ 100) :
    muxTick { b with digits := ds, dpPos := p } = { muxTick b with digits := ds, dpPos := p } := by
  simp only [muxTick, Config.dutyMax, if_neg (Nat.not_lt.mpr h)]
  split_ifs <;> rfl

theorem muxTick_iterate_withGlyphs {b : Block} (ds : Vector Byte 4) (p : Byte) {k : Nat}
    (h : b.duty.toNat + k ≤ 100) :
    muxTick^[k] { b with digits := ds, dpPos := p } = { muxTick^[k] b with digits := ds, dpPos := p } := by
  induction k with
  | zero => rfl
  | succ k ih =>
    obtain ⟨-, hduty⟩ := muxTick_iterate_within_slot (k := k) (b := b) (by omega)
    rw [Function.iterate_succ_apply', Function.iterate_succ_apply', ih (by omega), muxTick_withGlyphs ds p (by omega)]

/-- A write of a glyph code or of the point position changes nothing else in the block. -/
theorem blockAfter_glyphWrite {i : Instr} (b : Block)
    (h : (∃ (j : DigitIx) (d : Byte), i = .wrDigit j d) ∨ ∃ d : Byte, i = .wrDp d) :
    ∃ ds p, blockAfter i b = { b with digits := ds, dpPos := p } := by
  rcases h with ⟨j, d, rfl⟩ | ⟨d, rfl⟩
  · exact ⟨_, _, rfl⟩
  · exact ⟨_, _, rfl⟩

end Sys2Proof.Machine

namespace Sys2Proof

open Sys2Proof.Machine

/-- Settles O45: the cursor's closed form, from the start of a slot, at `k`, 101 and 404 ticks. -/
theorem slotIs101TicksAndFrame404 : Obligations.SlotIs101TicksAndFrame404 := by
  intro s hduty
  have hduty0 : s.block.duty.toNat = 0 := by rw [hduty]; rfl
  have hcursor (k : Nat) := exists_runTrace_rep_cursor k (s := s) (by omega)
  simp only [framePos, hduty0] at hcursor
  refine ⟨fun k hk => ?count, ?slot, ?frame⟩
  case count =>
    obtain ⟨t, hrun, hcur, hduty⟩ := hcursor k
    exact ⟨t, hrun, Fin.ext (by omega), by omega⟩
  case slot =>
    obtain ⟨t, hrun, hcur, hduty⟩ := hcursor 101
    exact ⟨t, hrun, Fin.ext (by rw [succ_digitIx_val]; omega),
      BitVec.eq_of_toNat_eq (show t.block.duty.toNat = 0 by omega)⟩
  case frame =>
    obtain ⟨t, hrun, hcur, hduty⟩ := hcursor 404
    exact ⟨t, hrun, Fin.ext (by omega), BitVec.eq_of_toNat_eq (show t.block.duty.toNat = 0 by omega)⟩

/-- Settles O46, by induction on the ticks, with the cursor known in closed form. -/
theorem dutyCycleIsIntensityOver404 : Obligations.DutyCycleIsIntensityOver404 := fun s k hduty hdig hint =>
  exists_runTrace_rep_of_iterate
    (P := fun b => b.dig[s.block.cur] = decide (k % 404 < min s.block.intens[s.block.cur].toNat 100))
    (muxTick_iterate_dig k rfl hduty hdig hint)

/-- Settles O47: past the deassert count no tick of the slot touches the line. -/
theorem missedDeassertLastsToTheEndOfTheSlot : Obligations.MissedDeassertLastsToTheEndOfTheSlot :=
  fun s _ hdig hn hk =>
    exists_runTrace_rep_of_iterate (P := fun b => b.cur = s.block.cur ∧ b.dig[s.block.cur] = true)
      ⟨(muxTick_iterate_within_slot hk).1, (muxTick_iterate_dig_of_missed hn hk).trans hdig⟩

/-- Settles O48: within the frame comes the last tick of the digit's on-portion, and the next one deasserts its line. -/
theorem litDigitIsDeassertedWithinAFrame : Obligations.LitDigitIsDeassertedWithinAFrame := by
  intro s k hrange hint
  have hpos := clampIntens_pos hint
  have hle := clampIntens_le s.block.intens[k]
  obtain ⟨n, hn, hcur, hduty⟩ := exists_iterate_cursor hrange k (d := clampIntens s.block.intens[k] - 1) (by omega)
  obtain ⟨-, hintens, -⟩ := muxTick_iterate_sameBuffer n s.block
  have hdark : (muxTick^[n + 1] s.block).dig[k] = false := by
    rw [Function.iterate_succ_apply', muxTick_dig_getElem, hintens, if_pos ⟨hcur, by omega⟩]
  obtain ⟨t, hrun, hdig⟩ := exists_runTrace_rep_of_iterate (P := fun b => b.dig[k] = false) hdark
  exact ⟨n + 1, t, by omega, by omega, hrun, hdig⟩

/-- Settles O49: within the frame comes the last tick of the slot before the digit's, and the next one advances into
it. -/
theorem everyDigitIsRenderedWithinAFrame : Obligations.EveryDigitIsRenderedWithinAFrame := by
  intro s k g hrange hg
  obtain ⟨n, hn, hcur, hduty⟩ := exists_iterate_cursor hrange (k - 1) (d := 100) le_rfl
  obtain ⟨hdigits, -, hdp⟩ := muxTick_iterate_sameBuffer n s.block
  have hadv : muxTick^[n + 1] s.block = advance k (muxTick^[n] s.block) := by
    rw [Function.iterate_succ_apply', muxTick_of_slot_end (by omega), hcur, sub_add_cancel]
  have hcode : s.block.digits[k].toNat < 17 := hg ▸ g.isLt
  have hrendered : (muxTick^[n + 1] s.block).cur = k ∧ (muxTick^[n + 1] s.block).duty = 0 ∧
      (muxTick^[n + 1] s.block).seg = segPattern (dpAt s.block.dpPos k) g := by
    rw [hadv, advance_eq, hdigits, hdp, renderedSeg_of_lt _ _ hcode]
    exact ⟨rfl, rfl, congrArg (segPattern _) (Fin.ext hg.symm)⟩
  obtain ⟨t, hrun, ht⟩ := exists_runTrace_rep_of_iterate
    (P := fun b => b.cur = k ∧ b.duty = 0 ∧ b.seg = segPattern (dpAt s.block.dpPos k) g) hrendered
  exact ⟨n + 1, t, by omega, by omega, hrun, ht⟩

/-- Settles O50: the write changes only what the ticks before the next advance do not read. -/
theorem glyphWriteIsUnseenBeforeTheAdvance : Obligations.GlyphWriteIsUnseenBeforeTheAdvance := by
  intro i s k hi hk
  obtain ⟨ds, p, hwrite⟩ := blockAfter_glyphWrite s.block hi
  obtain ⟨t, hrunt, ht⟩ := exists_runTrace_rep_tickMux k
    ((s.withBlock (blockAfter i s.block)).answer (rdataAfter i s.block s.hRdata))
  obtain ⟨u, hrunu, hu⟩ := exists_runTrace_rep_tickMux k s
  refine ⟨t, u, (runTrace_cons_of_next _ (exec_eq i s)).trans hrunt, hrunu, ?_⟩
  rw [State.answer_block, State.withBlock_block, hwrite, muxTick_iterate_withGlyphs ds p hk, ← hu] at ht
  rw [ht]
  exact ⟨⟨rfl, rfl⟩, hu ▸ muxTick_iterate_seg hk⟩

end Sys2Proof

/-! Traces from a known start: the display dark until an intensity is written (R221), the counter (R123, hazard H4 of
R233) and the Ready Flag (R133) over any interleaving. -/

namespace Sys2Proof.Machine

/-! ### The block that a trace leaves -/

/-- The fold of `blockAfter` over a trace; `exists_runTrace` ties it to `runTrace`. -/
def blockAfterTrace (is : List Instr) (b : Block) : Block := is.foldl (fun c i => blockAfter i c) b

@[simp] theorem blockAfterTrace_nil (b : Block) : blockAfterTrace [] b = b := rfl

@[simp] theorem blockAfterTrace_cons (i : Instr) (is : List Instr) (b : Block) :
    blockAfterTrace (i :: is) b = blockAfterTrace is (blockAfter i b) := rfl

@[simp] theorem blockAfterTrace_append (is js : List Instr) (b : Block) :
    blockAfterTrace (is ++ js) b = blockAfterTrace js (blockAfterTrace is b) := List.foldl_append

/-- Every trace completes, in every state, and leaves `blockAfterTrace` in the block. -/
theorem exists_runTrace (is : List Instr) (s : State) :
    ∃ t, runTrace is s = .next t ∧ t.block = blockAfterTrace is s.block := by
  induction is generalizing s with
  | nil => exact ⟨s, rfl, rfl⟩
  | cons i is ih =>
    rw [runTrace_cons_of_next is (exec_eq i s)]
    exact ih _

/-- What every operation of a trace keeps of the block, the trace keeps. -/
theorem blockAfterTrace_keeps {P : Block → Prop} {is : List Instr} {b : Block}
    (hkeep : ∀ i ∈ is, ∀ c : Block, P c → P (blockAfter i c)) (hP : P b) : P (blockAfterTrace is b) := by
  induction is generalizing b with
  | nil => exact hP
  | cons i is ih =>
    obtain ⟨hi, his⟩ := List.forall_mem_cons.mp hkeep
    exact ih his (hi b hP)

/-! ### The dark display (R221) -/

theorem ne_wrInten_of_not_writesInten {i : Instr} (h : writesInten i = false) (k : DigitIx) (d : Byte) :
    i ≠ .wrInten k d := by
  rintro rfl
  cases h

theorem dig_eq_dark {v : Vector Bool 4} (h : ∀ k : DigitIx, v[k] = false) : v = #v[false, false, false, false] := by
  ext j hj
  exact (h ⟨j, hj⟩).trans (Block.reset_dig_getElem ⟨j, hj⟩).symm

/-! ### The counter's ticks (R123) -/

theorem forall_mem_pseudoMs (k : Nat) : ∀ i ∈ pseudoMs k, i = .tickMs ∨ writesMs i = false := fun _ hi =>
  .inl (List.eq_of_mem_replicate hi)

theorem count_pseudoMs (k : Nat) : (pseudoMs k).count .tickMs = k := List.count_replicate_self

/-! ### The Ready Flag over a trace (R133) -/

/-- The trace has an EDGE after which nothing clears the flag. -/
def EdgeUncleared (is : List Instr) : Prop :=
  ∃ before after : List Instr, is = before ++ .edge :: after ∧ ∀ j ∈ after, clearsReady j = false

theorem not_edgeUncleared_nil : ¬ EdgeUncleared [] := by
  rintro ⟨before, after, h, -⟩
  exact List.append_ne_nil_of_right_ne_nil before (List.cons_ne_nil _ _) h.symm

/-- The EDGE stands in the rest of the trace, or is its first operation and the rest clears nothing. -/
theorem edgeUncleared_cons {i : Instr} {is : List Instr} :
    EdgeUncleared (i :: is) ↔ EdgeUncleared is ∨ (i = .edge ∧ ∀ j ∈ is, clearsReady j = false) := by
  constructor
  · rintro ⟨before, after, h, hclear⟩
    cases before with
    | nil =>
      obtain ⟨rfl, rfl⟩ := List.cons.inj h
      exact .inr ⟨rfl, hclear⟩
    | cons j before => exact .inl ⟨before, after, (List.cons.inj h).2, hclear⟩
  · rintro (⟨before, after, rfl, hclear⟩ | ⟨rfl, hclear⟩)
    · exact ⟨i :: before, after, rfl, hclear⟩
    · exact ⟨[], is, rfl, hclear⟩

theorem blockAfter_ready_iff (i : Instr) (b : Block) :
    (blockAfter i b).ready = true ↔ i = .edge ∨ (clearsReady i = false ∧ b.ready = true) := by
  by_cases hedge : i = .edge
  · subst hedge
    simp
  · rw [blockAfter_ready b hedge]
    cases clearsReady i <;> simp [hedge]

/-- After a trace the flag is set by an EDGE of the trace that was not cleared, or was set before and not cleared. -/
theorem blockAfterTrace_ready_iff (is : List Instr) (b : Block) :
    (blockAfterTrace is b).ready = true ↔
      EdgeUncleared is ∨ ((∀ j ∈ is, clearsReady j = false) ∧ b.ready = true) := by
  induction is generalizing b with
  | nil => simp [not_edgeUncleared_nil]
  | cons i is ih =>
    rw [blockAfterTrace_cons, ih, blockAfter_ready_iff, edgeUncleared_cons, List.forall_mem_cons]
    by_cases hedge : i = .edge
    · subst hedge
      simp [clearsReady]
      tauto
    · tauto

end Sys2Proof.Machine

namespace Sys2Proof

open Sys2Proof.Machine

/-- Settles O51: at reset every digit is blanked, and no operation but an intensity write ends that. -/
theorem displayIsDarkUntilAnIntensityIsWritten : Obligations.DisplayIsDarkUntilAnIntensityIsWritten := by
  intro is his
  obtain ⟨t, hrun, hblock⟩ := exists_runTrace is State.reset
  have hblank (k : DigitIx) : Blanked k t.block := hblock ▸ blockAfterTrace_keeps
    (fun i hi _ hb => blockAfter_blanked (fun d heq => absurd heq (ne_wrInten_of_not_writesInten (his i hi) k d)) hb)
    (blanked_reset k)
  exact ⟨t, hrun, dig_eq_dark fun k => (hblank k).2⟩

/-- Settles O52: every operation adds to `ms` its own number of TICK_MS. -/
theorem msCountsTheTicksOfAnyTrace : Obligations.MsCountsTheTicksOfAnyTrace := by
  refine ⟨fun is s his => ?_, fun i s t hi h => ?_⟩
  · obtain ⟨t, hrun, hms⟩ := exists_runTrace_ms_eq_add s his
    exact ⟨t, hrun, by rw [hms, BitVec.toNat_add, BitVec.toNat_ofNat, Nat.add_mod_mod]⟩
  · rw [block_of_exec h]
    exact blockAfter_ms s.block hi

/-- Settles O53, by induction on the trace: from a clear flag only an EDGE of the trace can have set it. -/
theorem readyIffAnEdgeSinceTheClear : Obligations.ReadyIffAnEdgeSinceTheClear := by
  intro is s hclear
  obtain ⟨t, hrun, hblock⟩ := exists_runTrace is s
  refine ⟨t, hrun, ?_⟩
  rw [hblock, blockAfterTrace_ready_iff, hclear]
  simp [EdgeUncleared]

/-- Settles O54: the first read answers before the lost ticks come, and the clear discards them. -/
theorem ticksBetweenReadAndClearAreLost : Obligations.TicksBetweenReadAndClearAreLost := by
  intro lost later x s
  obtain ⟨t, hread, hans, -⟩ := exists_exec_rdMs s
  obtain ⟨m, hlost, -⟩ := exists_runTrace_ms_eq_add t (forall_mem_pseudoMs lost)
  obtain ⟨u, hlater, hms⟩ := exists_runTrace_ms_eq_count (clear := .clrMs x) m (Block.setMs_ms m.block 0)
    (forall_mem_pseudoMs later)
  obtain ⟨v, hread', hans', -⟩ := exists_exec_rdMs u
  rw [count_pseudoMs] at hms
  exact ⟨t, u, v, hread, hans, (runTrace_append_of_next _ hlost).trans hlater, hread',
    hans'.trans (congrArg some hms)⟩

end Sys2Proof

/-! The host software through the block (spec/44_host_software.md): the Power Formatter's range (R163 to R166), what the
Digit Formatter's accesses leave (R168 to R174), the main loop (R161) and the whole device (R160). -/

namespace Sys2Proof.Machine

/-! ### The Power Formatter (R163 to R166) -/

theorem power_le (period : Word32) : power period ≤ 3600000 := by
  unfold power
  split
  · exact Nat.zero_le _
  · exact Nat.div_le_self _ _

/-- The scale table, row by row: the reading fits four digits, and the rows that round leave at least 1000. -/
theorem scaleReading_fits {p : Nat} (h : p ≤ 3600000) :
    (scaleReading p).value ≤ 9995 ∧ 0 ≤ (scaleReading p).dp ∧ (scaleReading p).dp ≤ 3 ∧
      (scaleReading p).showZeros = true ∧
      (999500 ≤ p → 1000 ≤ (scaleReading p).value ∧ (scaleReading p).value ≤ 3600) ∧
      (9995 ≤ p → p < 999500 → 1000 ≤ (scaleReading p).value ∧ 1 < (scaleReading p).dp) := by
  unfold scaleReading roundDiv
  split_ifs <;> simp only [true_and] <;> omega

/-! ### The Digit Formatter's values (R168 to R172) -/

theorem formatDigits_eq (value : Nat) :
    formatDigits value =
      if value ≤ 9999 then
        #v[BitVec.ofNat 8 (value / 1000 % 10), BitVec.ofNat 8 (value / 100 % 10), BitVec.ofNat 8 (value / 10 % 10),
          BitVec.ofNat 8 (value % 10)]
      else
        #v[BitVec.ofNat 8 Config.overflowGlyph.val, BitVec.ofNat 8 Config.overflowGlyph.val,
          BitVec.ofNat 8 Config.overflowGlyph.val, BitVec.ofNat 8 Config.overflowGlyph.val] := by
  unfold formatDigits
  split
  · simp [decimalDigits]
  · rfl

/-- A decimal digit and the overflow glyph are glyph codes (R24). -/
theorem formatDigits_getElem_le (value : Nat) (i : DigitIx) : (formatDigits value)[i].toNat ≤ 16 := by
  unfold formatDigits
  split
  · have hdigit := decimalDigits_getElem_le_nine value i
    have hget : ((decimalDigits value).map (BitVec.ofNat 8))[i] = BitVec.ofNat 8 (decimalDigits value)[i] :=
      Vector.getElem_map ..
    rw [hget, BitVec.toNat_ofNat]
    omega
  · have hglyph := Config.overflowGlyph.isLt
    have hget : (Vector.replicate 4 (BitVec.ofNat 8 Config.overflowGlyph.val))[i] =
        BitVec.ofNat 8 Config.overflowGlyph.val := Vector.getElem_replicate ..
    rw [hget, BitVec.toNat_ofNat]
    omega

/-- The intensities of a reading: the brightness, and 0 in the positions blanked (R170, R171). -/
def formatIntens (r : Reading) : Vector Byte 4 := Vector.ofFn fun k => if blanks r k then 0 else brightnessByte

theorem formatIntens_getElem (r : Reading) (k : DigitIx) :
    (formatIntens r)[k] = if blanks r k then 0 else brightnessByte := Vector.getElem_ofFn ..

theorem formatIntens_getElem_le (r : Reading) (k : DigitIx) : (formatIntens r)[k].toNat ≤ 100 := by
  have hbright := Config.brightness.isLt
  rw [formatIntens_getElem]
  split
  · exact Nat.zero_le _
  · rw [brightnessByte, BitVec.toNat_ofNat]
    omega

/-- The blanking tests written out, position by position (R171). -/
theorem formatIntens_eq (r : Reading) :
    formatIntens r =
      #v[if r.showZeros = false ∧ r.value < 1000 ∧ r.dp ≠ 1 then 0 else BitVec.ofNat 8 Config.brightness.val,
        if r.showZeros = false ∧ r.value < 100 ∧ r.dp ≠ 2 then 0 else BitVec.ofNat 8 Config.brightness.val,
        if r.showZeros = false ∧ r.value < 10 ∧ r.dp ≠ 3 then 0 else BitVec.ofNat 8 Config.brightness.val,
        BitVec.ofNat 8 Config.brightness.val] := by
  ext1 j hj
  refine (formatIntens_getElem r ⟨j, hj⟩).trans ?_
  match j, hj with
  | 0, _ | 1, _ | 2, _ | 3, _ => simp [blanks, brightnessByte]

theorem writesDp_iff (r : Reading) : writesDp r = true ↔ 1 ≤ r.dp ∧ r.dp ≤ 4 := by
  simp [writesDp]

/-! ### What each group of the Digit Formatter's accesses leaves (R173) -/

theorem set_all_digitIx {α : Type} (v w : Vector α 4) :
    (((w.set 0 v[0]).set 1 v[1]).set 2 v[2]).set 3 v[3] = v := by
  ext1 j hj
  match j, hj with
  | 0, _ | 1, _ | 2, _ | 3, _ => simp

theorem blockAfterTrace_pseudoShow (v : Vector Byte 4) (b : Block) :
    blockAfterTrace (pseudoShow v) b = { b with digits := v } :=
  congrArg (fun ds => { b with digits := ds }) (set_all_digitIx v b.digits)

theorem blockAfterTrace_pseudoBright (v : Vector Byte 4) (b : Block) :
    blockAfterTrace (pseudoBright v) b = { b with intens := v } :=
  congrArg (fun ns => { b with intens := ns }) (set_all_digitIx v b.intens)

/-- One intensity written to each position of a list. -/
theorem blockAfterTrace_map_wrInten (ks : List DigitIx) (d : Byte) (b : Block) :
    blockAfterTrace (ks.map fun k => .wrInten k d) b =
      { b with intens := Vector.ofFn fun k => if k ∈ ks then d else b.intens[k] } := by
  induction ks generalizing b with
  | nil => simp
  | cons k ks ih =>
    rw [List.map_cons, blockAfterTrace_cons, ih]
    refine congrArg (fun ns => { b with intens := Vector.ofFn ns }) (funext fun j => ?_)
    rw [blockAfter, Block.setInten_intens, getElem_set_digitIx]
    by_cases hj : k = j
    · simp [hj]
    · simp [hj, Ne.symm hj]

theorem mem_blanked_iff (r : Reading) (k : DigitIx) :
    k ∈ ([0, 1, 2] : List DigitIx).filter (blanks r) ↔ blanks r k = true := by
  match k with
  | 0 | 1 | 2 => simp
  | 3 => simp [blanks]

theorem blockAfterTrace_writesDp (r : Reading) (b : Block) :
    blockAfterTrace (if writesDp r then [Instr.wrDp (BitVec.ofInt 8 r.dp)] else []) b =
      { b with dpPos := if writesDp r then BitVec.ofInt 8 r.dp else b.dpPos } := by
  split <;> rfl

theorem blockAfterTrace_digitFormat (r : Reading) (b : Block) :
    blockAfterTrace (digitFormat r) b =
      { b with
        digits := formatDigits r.value
        intens := formatIntens r
        dpPos := if writesDp r then BitVec.ofInt 8 r.dp else b.dpPos } := by
  simp only [digitFormat, blockAfterTrace_append, blockAfterTrace_pseudoShow, blockAfterTrace_pseudoBright,
    blockAfterTrace_map_wrInten, mem_blanked_iff, blockAfterTrace_writesDp, formatIntens, Fin.getElem_fin,
    Vector.getElem_replicate]

/-- The reading left in the block is legal: glyph codes and intensities in their documented ranges (R24). -/
theorem bufferLegal_format (r : Reading) {b : Block} (hdigits : b.digits = formatDigits r.value)
    (hintens : b.intens = formatIntens r) : BufferLegal b := by
  intro i
  rw [hdigits, hintens]
  exact ⟨formatDigits_getElem_le r.value i, formatIntens_getElem_le r i⟩

/-! ### The host's turns (R161) -/

theorem hostTurn_of_exec {d : Device} {t : State} (h : exec d.host.access d.state = .next t) :
    d.hostTurn = .next ⟨t, d.host.after t.hRdata⟩ := by
  rw [Device.hostTurn, h]

theorem eventTurn_of_exec {event : DeviceEvent} {d : Device} {t : State} (h : exec event.op d.state = .next t) :
    d.eventTurn event = .next ⟨t, d.host.afterEvent event⟩ := by
  rw [Device.eventTurn, h]

/-- A poll that finds the flag set goes on to the sample (R161). -/
theorem hostTurn_poll_of_ready {s : State} (h : s.block.ready = true) :
    (Device.mk s .poll).hostTurn = .next ⟨s.answer (some 1), .sample⟩ := by
  have hread : s.block.readReady = 1 := by rw [Block.readReady_eq, if_pos h]
  have hexec : exec .rdRdy s = .next (s.answer (some 1)) := by
    rw [← hread]
    exact exec_eq .rdRdy s
  exact hostTurn_of_exec hexec

theorem hostTurn_sample (s : State) :
    (Device.mk s .sample).hostTurn = .next ⟨s.answer (some s.block.ms), .clearMs s.block.ms⟩ := rfl

theorem hostTurn_clearMs (s : State) (period : Word32) :
    (Device.mk s (.clearMs period)).hostTurn =
      .next ⟨(s.withBlock (s.block.setMs 0)).answer none, .clearReady period⟩ := rfl

theorem hostTurn_clearReady (s : State) (period : Word32) :
    (Device.mk s (.clearReady period)).hostTurn =
      .next ⟨(s.withBlock s.block.clearReady).answer none, .format (digitFormat (powerFormat period))⟩ := rfl

/-! ### The host issues accesses only (R160) -/

theorem agent_of_mem_pseudoShow (v : Vector Byte 4) : ∀ i ∈ pseudoShow v, i.agent = .host := by
  simp [pseudoShow, Instr.agent]

theorem agent_of_mem_pseudoBright (v : Vector Byte 4) : ∀ i ∈ pseudoBright v, i.agent = .host := by
  simp [pseudoBright, Instr.agent]

theorem agent_of_mem_digitFormat {r : Reading} {i : Instr} (h : i ∈ digitFormat r) : i.agent = .host := by
  simp only [digitFormat, List.mem_append] at h
  rcases h with ((hshow | hbright) | hblank) | hpoint
  · exact agent_of_mem_pseudoShow _ i hshow
  · exact agent_of_mem_pseudoBright _ i hbright
  · obtain ⟨k, -, rfl⟩ := List.mem_map.mp hblank
    rfl
  · split at hpoint
    · obtain rfl := List.mem_singleton.mp hpoint
      rfl
    · cases hpoint

theorem issuesOnlyAccesses_format_iff {todo : List Instr} :
    (HostPhase.format todo).issuesOnlyAccesses = true ↔ ∀ i ∈ todo, i.agent = .host := by
  simp [HostPhase.issuesOnlyAccesses]

theorem issuesOnlyAccesses_digitFormat (r : Reading) : (HostPhase.format (digitFormat r)).issuesOnlyAccesses = true :=
  issuesOnlyAccesses_format_iff.mpr fun _ => agent_of_mem_digitFormat

theorem issuesOnlyAccesses_afterPoll (r : Option Word32) : (afterPoll r).issuesOnlyAccesses = true := by
  cases r with
  | none => rfl
  | some v =>
    simp only [afterPoll]
    split <;> rfl

theorem access_agent_of_issuesOnlyAccesses {p : HostPhase} (h : p.issuesOnlyAccesses = true) :
    p.access.agent = .host := by
  cases p with
  | format todo =>
    cases todo with
    | nil => rfl
    | cons i is => exact issuesOnlyAccesses_format_iff.mp h i List.mem_cons_self
  | _ => rfl

/-- The main loop goes on with accesses only, whatever the port answers. -/
theorem after_issuesOnlyAccesses {p : HostPhase} (r : Option Word32) (h : p.issuesOnlyAccesses = true) :
    (p.after r).issuesOnlyAccesses = true := by
  cases p with
  | poll => exact issuesOnlyAccesses_afterPoll r
  | sample => cases r <;> rfl
  | clearMs => rfl
  | clearReady period => exact issuesOnlyAccesses_digitFormat _
  | format todo =>
    cases todo with
    | nil => exact issuesOnlyAccesses_afterPoll r
    | cons i is =>
      have hall := issuesOnlyAccesses_format_iff.mp h
      exact issuesOnlyAccesses_format_iff.mpr fun j hj => hall j (List.mem_cons_of_mem i hj)

theorem afterEvent_issuesOnlyAccesses {p : HostPhase} (event : DeviceEvent) (h : p.issuesOnlyAccesses = true) :
    (p.afterEvent event).issuesOnlyAccesses = true := by
  cases event with
  | rst hostRestarts =>
    cases hostRestarts with
    | true => exact issuesOnlyAccesses_digitFormat _
    | false => exact h
  | _ => exact h

/-- An event that is no reset leaves the host where it stands, and its operation writes no Display Buffer register and
clears no flag; `ms` stays or counts one tick. -/
theorem event_effect {event : DeviceEvent} (h : event.op ≠ .reset) (b : Block) (p : HostPhase) :
    p.afterEvent event = p ∧ SameBuffer (blockAfter event.op b) b ∧
      ((blockAfter event.op b).ms = b.ms ∨ (blockAfter event.op b).ms = b.ms + 1) ∧
      (b.ready = true → (blockAfter event.op b).ready = true) := by
  cases event with
  | rst => exact absurd rfl h
  | tickMux =>
    obtain ⟨-, -, -, hms, hready⟩ := muxTick_frame b
    exact ⟨rfl, blockAfter_sameBuffer b rfl, .inl hms, hready.trans⟩
  | tickMs => exact ⟨rfl, blockAfter_sameBuffer b rfl, .inr rfl, id⟩
  | edgeEvt => exact ⟨rfl, blockAfter_sameBuffer b rfl, .inl rfl, fun _ => rfl⟩

end Sys2Proof.Machine

namespace Sys2Proof

open Sys2Proof.Machine

/-- Settles O55: the scale table at a power of at most 3600000. -/
theorem powerFormatterFitsFourDigits : Obligations.PowerFormatterFitsFourDigits := fun period =>
  ⟨power_le period, scaleReading_fits (power_le period)⟩

/-- Settles O57: the four groups of the Digit Formatter's accesses one after another, each leaving one part of the
buffer. -/
theorem digitFormatterLeavesTheReading : Obligations.DigitFormatterLeavesTheReading := by
  intro r s
  obtain ⟨t, hrun, hblock⟩ := exists_runTrace (digitFormat r) s
  rw [blockAfterTrace_digitFormat] at hblock
  refine ⟨t, hrun, ?_, bufferLegal_format r (congrArg Block.digits hblock) (congrArg Block.intens hblock)⟩
  simp only [hblock, formatDigits_eq, formatIntens_eq, writesDp_iff]

/-- Settles O58: the Digit Formatter's result for the start-up call's reading, at the reset block. -/
theorem bootLeavesTheRestingDisplay : Obligations.BootLeavesTheRestingDisplay := by
  obtain ⟨t, hrun, hblock, -⟩ := digitFormatterLeavesTheReading ⟨0, 1, false⟩ State.reset
  exact ⟨t, hrun, hblock.trans (by simp [State.reset])⟩

/-- Settles O59: the main loop's four turns, one after another. -/
theorem mainLoopTakesTheSample : Obligations.MainLoopTakesTheSample := fun _ hready =>
  ⟨_, _, _, _, hostTurn_poll_of_ready hready, rfl, rfl, hostTurn_sample _, rfl, rfl, hostTurn_clearMs _ _, rfl,
    hready, hostTurn_clearReady _ _, rfl, rfl⟩

/-- Settles O60: what each phase issues and where it goes, and the effect of each event that is no reset. -/
theorem hostIsTheOnlyWriterAndConsumer : Obligations.HostIsTheOnlyWriterAndConsumer := by
  refine ⟨issuesOnlyAccesses_digitFormat _, fun d hd => ⟨access_agent_of_issuesOnlyAccesses hd, ?host⟩,
    fun event d hd => ?event, fun event d e hne h => ?effect⟩
  case host => exact ⟨_, hostTurn_of_exec (exec_eq _ _), after_issuesOnlyAccesses _ hd⟩
  case event => exact ⟨_, eventTurn_of_exec (exec_eq _ _), afterEvent_issuesOnlyAccesses event hd⟩
  case effect =>
    cases (eventTurn_of_exec (exec_eq event.op d.state)).symm.trans h
    exact event_effect hne d.state.block d.host

end Sys2Proof
